-- ==== Sys2Proof/Word.lean ====
section
/-! DEFINITION. The two word types of the machine (00_scope.md R7, R8): the 8-bit byte of registers and memory cells,
and the 16-bit address of PC and the bus. Arithmetic on them wraps, as `wrap8` and `wrap16` of R9 do. -/

namespace Sys2Proof

/-- `u8` of R8: a register, a memory cell, an operand byte. -/
abbrev Byte := BitVec 8

/-- `u16` of R8: an address or the program counter. -/
abbrev Addr := BitVec 16

end Sys2Proof
end

