-- ==== Sys2Proof/Config.lean ====
section
/-! DEFINITION. What the implementation fixes (00_scope.md R7) and no rule computes: whether the unofficial opcodes
execute, and what a memory byte nothing has written reads as. The other parameters of R7 are not constants of this
file: MEM0 and LAUNCH_REGS are the state a statement starts from, CYCLES is the last column of `Instr.desc`, and
BIT5_POLICY = ForceOne is the OR of `pulledStatus`. -/

namespace Sys2Proof

/-- `UNOFFICIAL_EXEC` of R7, R115 and D2: `true` is the spec's setting, at which LAX, SAX, DCP and ISC execute. The
decoder `decodeWith` takes the other value as an argument too. (log 7, DEDUCED) -/
def Config.unofficialExec : Bool := true

/-- What an address that the memory list does not mention reads as. The spec gives memory no launch contents (R63: the image
MEM0 is a free argument); every image is some memory list, and this byte only shortens the list. (log 1, DESIGN
CHOICE, unsafe for a statement about the run from `State.reset` alone) -/
def Config.unlistedByte : Byte := 0x00

end Sys2Proof
end

