-- ==== Sys2Proof/Syntax.lean ====
section
/-! DEFINITION. The instructions: one constructor per row of spec/opcode_table.json (175 rows; 30_encoding.md R114, R116).
A constructor's name is the row's mnemonic and mode: Imm Immediate, Zp ZeroPage, Zpx ZeroPageX, Zpy ZeroPageY,
Abs Absolute, Absx AbsoluteX, Absy AbsoluteY, Ind Indirect, Izx IndexedIndirect, Izy IndirectIndexed, Acc Accumulator; the
Implied and Relative rows and JSR carry the mnemonic alone. The argument is the operand (R91): `v` an immediate byte, `b` a
zero-page byte, `off` a branch offset byte, `a` a 16-bit address. (log 3) -/

namespace Sys2Proof

/-- An instruction with its operand bytes. -/
inductive Instr where
  -- LDA, R150
  | ldaImm (v : Byte) | ldaZp (b : Byte) | ldaZpx (b : Byte) | ldaAbs (a : Addr) | ldaAbsx (a : Addr)
  | ldaAbsy (a : Addr) | ldaIzx (b : Byte) | ldaIzy (b : Byte)
  -- LDX, R151
  | ldxImm (v : Byte) | ldxZp (b : Byte) | ldxZpy (b : Byte) | ldxAbs (a : Addr) | ldxAbsy (a : Addr)
  -- LDY, R152
  | ldyImm (v : Byte) | ldyZp (b : Byte) | ldyZpx (b : Byte) | ldyAbs (a : Addr) | ldyAbsx (a : Addr)
  -- STA, R153
  | staZp (b : Byte) | staZpx (b : Byte) | staAbs (a : Addr) | staAbsx (a : Addr) | staAbsy (a : Addr)
  | staIzx (b : Byte) | staIzy (b : Byte)
  -- STX, R154
  | stxZp (b : Byte) | stxZpy (b : Byte) | stxAbs (a : Addr)
  -- STY, R155
  | styZp (b : Byte) | styZpx (b : Byte) | styAbs (a : Addr)
  -- ADC, R162
  | adcImm (v : Byte) | adcZp (b : Byte) | adcZpx (b : Byte) | adcAbs (a : Addr) | adcAbsx (a : Addr)
  | adcAbsy (a : Addr) | adcIzx (b : Byte) | adcIzy (b : Byte)
  -- SBC, R163
  | sbcImm (v : Byte) | sbcZp (b : Byte) | sbcZpx (b : Byte) | sbcAbs (a : Addr) | sbcAbsx (a : Addr)
  | sbcAbsy (a : Addr) | sbcIzx (b : Byte) | sbcIzy (b : Byte)
  -- AND, R170
  | andImm (v : Byte) | andZp (b : Byte) | andZpx (b : Byte) | andAbs (a : Addr) | andAbsx (a : Addr)
  | andAbsy (a : Addr) | andIzx (b : Byte) | andIzy (b : Byte)
  -- ORA, R171
  | oraImm (v : Byte) | oraZp (b : Byte) | oraZpx (b : Byte) | oraAbs (a : Addr) | oraAbsx (a : Addr)
  | oraAbsy (a : Addr) | oraIzx (b : Byte) | oraIzy (b : Byte)
  -- EOR, R172
  | eorImm (v : Byte) | eorZp (b : Byte) | eorZpx (b : Byte) | eorAbs (a : Addr) | eorAbsx (a : Addr)
  | eorAbsy (a : Addr) | eorIzx (b : Byte) | eorIzy (b : Byte)
  -- BIT, R173
  | bitZp (b : Byte) | bitAbs (a : Addr)
  -- ASL, R180
  | aslZp (b : Byte) | aslZpx (b : Byte) | aslAbs (a : Addr) | aslAbsx (a : Addr) | aslAcc
  -- LSR, R181
  | lsrZp (b : Byte) | lsrZpx (b : Byte) | lsrAbs (a : Addr) | lsrAbsx (a : Addr) | lsrAcc
  -- ROL, R182
  | rolZp (b : Byte) | rolZpx (b : Byte) | rolAbs (a : Addr) | rolAbsx (a : Addr) | rolAcc
  -- ROR, R183
  | rorZp (b : Byte) | rorZpx (b : Byte) | rorAbs (a : Addr) | rorAbsx (a : Addr) | rorAcc
  -- CMP, R191
  | cmpImm (v : Byte) | cmpZp (b : Byte) | cmpZpx (b : Byte) | cmpAbs (a : Addr) | cmpAbsx (a : Addr)
  | cmpAbsy (a : Addr) | cmpIzx (b : Byte) | cmpIzy (b : Byte)
  -- CPX, R192
  | cpxImm (v : Byte) | cpxZp (b : Byte) | cpxAbs (a : Addr)
  -- CPY, R193
  | cpyImm (v : Byte) | cpyZp (b : Byte) | cpyAbs (a : Addr)
  -- INC, R200
  | incZp (b : Byte) | incZpx (b : Byte) | incAbs (a : Addr) | incAbsx (a : Addr)
  -- DEC, R201
  | decZp (b : Byte) | decZpx (b : Byte) | decAbs (a : Addr) | decAbsx (a : Addr)
  -- INX, R202
  | inx
  -- DEX, R203
  | dex
  -- INY, R204
  | iny
  -- DEY, R205
  | dey
  -- BCC, R211
  | bcc (off : Byte)
  -- BCS, R212
  | bcs (off : Byte)
  -- BEQ, R213
  | beq (off : Byte)
  -- BMI, R214
  | bmi (off : Byte)
  -- BNE, R215
  | bne (off : Byte)
  -- BPL, R216
  | bpl (off : Byte)
  -- BVC, R217
  | bvc (off : Byte)
  -- BVS, R218
  | bvs (off : Byte)
  -- JMP, R219
  | jmpAbs (a : Addr) | jmpInd (a : Addr)
  -- JSR, R228
  | jsr (a : Addr)
  -- RTS, R229
  | rts
  -- PHA, R230
  | pha
  -- PHP, R231
  | php
  -- PLA, R232
  | pla
  -- PLP, R233
  | plp
  -- BRK, R234
  | brk
  -- RTI, R235
  | rti
  -- TAX, R245
  | tax
  -- TAY, R246
  | tay
  -- TSX, R247
  | tsx
  -- TXA, R248
  | txa
  -- TXS, R249
  | txs
  -- TYA, R250
  | tya
  -- CLC, R251
  | clc
  -- SEC, R252
  | sec
  -- CLI, R253
  | cli
  -- SEI, R254
  | sei
  -- CLV, R255
  | clv
  -- CLD, R256
  | cld
  -- SED, R257
  | sed
  -- NOP, R258
  | nop
  -- LAX, R261 (unofficial)
  | laxZp (b : Byte) | laxZpy (b : Byte) | laxAbs (a : Addr) | laxAbsy (a : Addr) | laxIzx (b : Byte)
  | laxIzy (b : Byte)
  -- SAX, R262 (unofficial)
  | saxZp (b : Byte) | saxZpy (b : Byte) | saxAbs (a : Addr) | saxIzx (b : Byte)
  -- DCP, R263 (unofficial)
  | dcpZp (b : Byte) | dcpZpx (b : Byte) | dcpAbs (a : Addr) | dcpAbsx (a : Addr) | dcpAbsy (a : Addr)
  | dcpIzx (b : Byte) | dcpIzy (b : Byte)
  -- ISC, R264 (unofficial)
  | iscZp (b : Byte) | iscZpx (b : Byte) | iscAbs (a : Addr) | iscAbsx (a : Addr) | iscAbsy (a : Addr)
  | iscIzx (b : Byte) | iscIzy (b : Byte)
deriving DecidableEq, Repr

end Sys2Proof
end

