-- ==== Sys2Proof/WellFormed.lean ====
section
/-! DEFINITION. Which instructions are well-formed. The operand types of `Instr` admit exactly the operands of the
formats of 30_encoding.md R91, so one check is left: the 24 unofficial rows (R116) are admitted only while
`UNOFFICIAL_EXEC` is true (R115, R260). -/

namespace Sys2Proof

/-- The rows of R116: the admitted unofficial opcodes. -/
def Instr.isUnofficial : Instr → Bool
  | .laxZp _ | .laxZpy _ | .laxAbs _ | .laxAbsy _ | .laxIzx _ | .laxIzy _ | .saxZp _ | .saxZpy _ | .saxAbs _
  | .saxIzx _ | .dcpZp _ | .dcpZpx _ | .dcpAbs _ | .dcpAbsx _ | .dcpAbsy _ | .dcpIzx _ | .dcpIzy _ | .iscZp _
  | .iscZpx _ | .iscAbs _ | .iscAbsx _ | .iscAbsy _ | .iscIzx _ | .iscIzy _ => true
  | .ldaImm _ | .ldaZp _ | .ldaZpx _ | .ldaAbs _ | .ldaAbsx _ | .ldaAbsy _ | .ldaIzx _ | .ldaIzy _ | .ldxImm _
  | .ldxZp _ | .ldxZpy _ | .ldxAbs _ | .ldxAbsy _ | .ldyImm _ | .ldyZp _ | .ldyZpx _ | .ldyAbs _ | .ldyAbsx _
  | .staZp _ | .staZpx _ | .staAbs _ | .staAbsx _ | .staAbsy _ | .staIzx _ | .staIzy _ | .stxZp _ | .stxZpy _
  | .stxAbs _ | .styZp _ | .styZpx _ | .styAbs _ | .adcImm _ | .adcZp _ | .adcZpx _ | .adcAbs _ | .adcAbsx _
  | .adcAbsy _ | .adcIzx _ | .adcIzy _ | .sbcImm _ | .sbcZp _ | .sbcZpx _ | .sbcAbs _ | .sbcAbsx _ | .sbcAbsy _
  | .sbcIzx _ | .sbcIzy _ | .andImm _ | .andZp _ | .andZpx _ | .andAbs _ | .andAbsx _ | .andAbsy _ | .andIzx _
  | .andIzy _ | .oraImm _ | .oraZp _ | .oraZpx _ | .oraAbs _ | .oraAbsx _ | .oraAbsy _ | .oraIzx _ | .oraIzy _
  | .eorImm _ | .eorZp _ | .eorZpx _ | .eorAbs _ | .eorAbsx _ | .eorAbsy _ | .eorIzx _ | .eorIzy _ | .bitZp _
  | .bitAbs _ | .aslZp _ | .aslZpx _ | .aslAbs _ | .aslAbsx _ | .aslAcc | .lsrZp _ | .lsrZpx _ | .lsrAbs _
  | .lsrAbsx _ | .lsrAcc | .rolZp _ | .rolZpx _ | .rolAbs _ | .rolAbsx _ | .rolAcc | .rorZp _ | .rorZpx _ | .rorAbs _
  | .rorAbsx _ | .rorAcc | .cmpImm _ | .cmpZp _ | .cmpZpx _ | .cmpAbs _ | .cmpAbsx _ | .cmpAbsy _ | .cmpIzx _
  | .cmpIzy _ | .cpxImm _ | .cpxZp _ | .cpxAbs _ | .cpyImm _ | .cpyZp _ | .cpyAbs _ | .incZp _ | .incZpx _
  | .incAbs _ | .incAbsx _ | .decZp _ | .decZpx _ | .decAbs _ | .decAbsx _ | .inx | .dex | .iny | .dey | .bcc _
  | .bcs _ | .beq _ | .bmi _ | .bne _ | .bpl _ | .bvc _ | .bvs _ | .jmpAbs _ | .jmpInd _ | .jsr _ | .rts | .pha
  | .php | .pla | .plp | .brk | .rti | .tax | .tay | .tsx | .txa | .txs | .tya | .clc | .sec | .cli | .sei | .clv
  | .cld | .sed | .nop => false

/-- The check, for a given setting of `UNOFFICIAL_EXEC` (R115). -/
def Instr.wfWith (unofficialExec : Bool) (i : Instr) : Bool := !i.isUnofficial || unofficialExec

/-- Well-formed under the setting of this hardware. -/
abbrev Instr.WellFormed (i : Instr) : Prop := i.wfWith Config.unofficialExec = true

end Sys2Proof
end

