-- ==== Sys2Proof/Decode.lean ====
section
/-! DEFINITION. The decode table and the encoder (30_encoding.md R90 to R95, R114 to R119). The decoder reads the 16 by 16 map
of R119; the encoder and the other columns (mnemonic, mode, base cycles) come from `Instr.desc`, the rows of R114
and R116 in the spec's order. The two are written apart, and Obligations.DecodeInvertsEncode relates them. -/

namespace Sys2Proof

/-! ## Byte order (R8, R65) -/

/-- `lo(w)` of R8. -/
def loByte (w : Addr) : Byte := w.extractLsb' 0 8

/-- `hi(w)` of R8. -/
def hiByte (w : Addr) : Byte := w.extractLsb' 8 8

/-- `(h << 8) | l` of R8 and R65. -/
def joinBytes (h l : Byte) : Addr := h ++ l

/-- `zext_16(v)` of R8. -/
def zextAddr (v : Byte) : Addr := v.setWidth 16

/-- `sext_16(v)` of R8, also `signed8(v)` taken modulo 65536. -/
def sextAddr (v : Byte) : Addr := v.signExtend 16

/-! ## Modes and descriptors (R91, R92, R94) -/

/-- The eleven modes with operand bytes, each with the operand the format of R91 holds. -/
inductive MemOperand where
  | immediate (v : Byte) | zeroPage (b : Byte) | zeroPageX (b : Byte) | zeroPageY (b : Byte)
  | absolute (a : Addr) | absoluteX (a : Addr) | absoluteY (a : Addr) | indirect (a : Addr)
  | indexedIndirect (b : Byte) | indirectIndexed (b : Byte) | relative (off : Byte)
deriving DecidableEq, Repr

/-- The thirteen modes: the eleven above, and the two whose resolver answers NONE (R97, R98). -/
inductive Operand where
  | implied | accumulator | mem (m : MemOperand)
deriving DecidableEq, Repr

/-- The operand bytes in memory order: a 16-bit operand lies low byte first (R91, R65). -/
def MemOperand.bytes : MemOperand → List Byte
  | .immediate b | .zeroPage b | .zeroPageX b | .zeroPageY b | .indexedIndirect b | .indirectIndexed b
  | .relative b => [b]
  | .absolute a | .absoluteX a | .absoluteY a | .indirect a => [loByte a, hiByte a]

/-- The operand byte count n of R94. -/
def MemOperand.count : MemOperand → Nat
  | .immediate _ | .zeroPage _ | .zeroPageX _ | .zeroPageY _ | .indexedIndirect _ | .indirectIndexed _
  | .relative _ => 1
  | .absolute _ | .absoluteX _ | .absoluteY _ | .indirect _ => 2

/-- The operand bytes of any mode. -/
def Operand.bytes : Operand → List Byte
  | .implied | .accumulator => []
  | .mem m => m.bytes

/-- The operand byte count of any mode (R94). -/
def Operand.count : Operand → Nat
  | .implied | .accumulator => 0
  | .mem m => m.count

/-- The sixty mnemonics (R2, R114, R116). -/
inductive Mnemonic where
  | lda | ldx | ldy | sta | stx | sty | adc | sbc | and | ora | eor | bit | asl | lsr | rol | ror | cmp | cpx | cpy
  | inc | dec | inx | dex | iny | dey | bcc | bcs | beq | bmi | bne | bpl | bvc | bvs | jmp | jsr | rts | pha | php
  | pla | plp | brk | rti | tax | tay | tsx | txa | txs | tya | clc | sec | cli | sei | clv | cld | sed | nop | lax
  | sax | dcp | isc
deriving DecidableEq, Repr

/-- One row of R114 or R116: the opcode byte, the mnemonic, the mode with its operand, the base cycle count (R92, R122). -/
structure Desc where
  opcode : Byte
  mnemonic : Mnemonic
  operand : Operand
  cycles : Nat
deriving DecidableEq, Repr

/-- The rows of R114 and R116, mnemonic by mnemonic. The cycle column is the parameter CYCLES (R7, R122). -/
def Instr.desc : Instr → Desc
  | .ldaImm v => ⟨0xA9, .lda, .mem (.immediate v), 2⟩
  | .ldaZp b => ⟨0xA5, .lda, .mem (.zeroPage b), 3⟩
  | .ldaZpx b => ⟨0xB5, .lda, .mem (.zeroPageX b), 4⟩
  | .ldaAbs a => ⟨0xAD, .lda, .mem (.absolute a), 4⟩
  | .ldaAbsx a => ⟨0xBD, .lda, .mem (.absoluteX a), 4⟩
  | .ldaAbsy a => ⟨0xB9, .lda, .mem (.absoluteY a), 4⟩
  | .ldaIzx b => ⟨0xA1, .lda, .mem (.indexedIndirect b), 6⟩
  | .ldaIzy b => ⟨0xB1, .lda, .mem (.indirectIndexed b), 5⟩
  | .ldxImm v => ⟨0xA2, .ldx, .mem (.immediate v), 2⟩
  | .ldxZp b => ⟨0xA6, .ldx, .mem (.zeroPage b), 3⟩
  | .ldxZpy b => ⟨0xB6, .ldx, .mem (.zeroPageY b), 4⟩
  | .ldxAbs a => ⟨0xAE, .ldx, .mem (.absolute a), 4⟩
  | .ldxAbsy a => ⟨0xBE, .ldx, .mem (.absoluteY a), 4⟩
  | .ldyImm v => ⟨0xA0, .ldy, .mem (.immediate v), 2⟩
  | .ldyZp b => ⟨0xA4, .ldy, .mem (.zeroPage b), 3⟩
  | .ldyZpx b => ⟨0xB4, .ldy, .mem (.zeroPageX b), 4⟩
  | .ldyAbs a => ⟨0xAC, .ldy, .mem (.absolute a), 4⟩
  | .ldyAbsx a => ⟨0xBC, .ldy, .mem (.absoluteX a), 4⟩
  | .staZp b => ⟨0x85, .sta, .mem (.zeroPage b), 3⟩
  | .staZpx b => ⟨0x95, .sta, .mem (.zeroPageX b), 4⟩
  | .staAbs a => ⟨0x8D, .sta, .mem (.absolute a), 4⟩
  | .staAbsx a => ⟨0x9D, .sta, .mem (.absoluteX a), 5⟩
  | .staAbsy a => ⟨0x99, .sta, .mem (.absoluteY a), 5⟩
  | .staIzx b => ⟨0x81, .sta, .mem (.indexedIndirect b), 6⟩
  | .staIzy b => ⟨0x91, .sta, .mem (.indirectIndexed b), 6⟩
  | .stxZp b => ⟨0x86, .stx, .mem (.zeroPage b), 3⟩
  | .stxZpy b => ⟨0x96, .stx, .mem (.zeroPageY b), 4⟩
  | .stxAbs a => ⟨0x8E, .stx, .mem (.absolute a), 4⟩
  | .styZp b => ⟨0x84, .sty, .mem (.zeroPage b), 3⟩
  | .styZpx b => ⟨0x94, .sty, .mem (.zeroPageX b), 4⟩
  | .styAbs a => ⟨0x8C, .sty, .mem (.absolute a), 4⟩
  | .adcImm v => ⟨0x69, .adc, .mem (.immediate v), 2⟩
  | .adcZp b => ⟨0x65, .adc, .mem (.zeroPage b), 3⟩
  | .adcZpx b => ⟨0x75, .adc, .mem (.zeroPageX b), 4⟩
  | .adcAbs a => ⟨0x6D, .adc, .mem (.absolute a), 4⟩
  | .adcAbsx a => ⟨0x7D, .adc, .mem (.absoluteX a), 4⟩
  | .adcAbsy a => ⟨0x79, .adc, .mem (.absoluteY a), 4⟩
  | .adcIzx b => ⟨0x61, .adc, .mem (.indexedIndirect b), 6⟩
  | .adcIzy b => ⟨0x71, .adc, .mem (.indirectIndexed b), 5⟩
  | .sbcImm v => ⟨0xE9, .sbc, .mem (.immediate v), 2⟩
  | .sbcZp b => ⟨0xE5, .sbc, .mem (.zeroPage b), 3⟩
  | .sbcZpx b => ⟨0xF5, .sbc, .mem (.zeroPageX b), 4⟩
  | .sbcAbs a => ⟨0xED, .sbc, .mem (.absolute a), 4⟩
  | .sbcAbsx a => ⟨0xFD, .sbc, .mem (.absoluteX a), 4⟩
  | .sbcAbsy a => ⟨0xF9, .sbc, .mem (.absoluteY a), 4⟩
  | .sbcIzx b => ⟨0xE1, .sbc, .mem (.indexedIndirect b), 6⟩
  | .sbcIzy b => ⟨0xF1, .sbc, .mem (.indirectIndexed b), 5⟩
  | .andImm v => ⟨0x29, .and, .mem (.immediate v), 2⟩
  | .andZp b => ⟨0x25, .and, .mem (.zeroPage b), 3⟩
  | .andZpx b => ⟨0x35, .and, .mem (.zeroPageX b), 4⟩
  | .andAbs a => ⟨0x2D, .and, .mem (.absolute a), 4⟩
  | .andAbsx a => ⟨0x3D, .and, .mem (.absoluteX a), 4⟩
  | .andAbsy a => ⟨0x39, .and, .mem (.absoluteY a), 4⟩
  | .andIzx b => ⟨0x21, .and, .mem (.indexedIndirect b), 6⟩
  | .andIzy b => ⟨0x31, .and, .mem (.indirectIndexed b), 5⟩
  | .oraImm v => ⟨0x09, .ora, .mem (.immediate v), 2⟩
  | .oraZp b => ⟨0x05, .ora, .mem (.zeroPage b), 3⟩
  | .oraZpx b => ⟨0x15, .ora, .mem (.zeroPageX b), 4⟩
  | .oraAbs a => ⟨0x0D, .ora, .mem (.absolute a), 4⟩
  | .oraAbsx a => ⟨0x1D, .ora, .mem (.absoluteX a), 4⟩
  | .oraAbsy a => ⟨0x19, .ora, .mem (.absoluteY a), 4⟩
  | .oraIzx b => ⟨0x01, .ora, .mem (.indexedIndirect b), 6⟩
  | .oraIzy b => ⟨0x11, .ora, .mem (.indirectIndexed b), 5⟩
  | .eorImm v => ⟨0x49, .eor, .mem (.immediate v), 2⟩
  | .eorZp b => ⟨0x45, .eor, .mem (.zeroPage b), 3⟩
  | .eorZpx b => ⟨0x55, .eor, .mem (.zeroPageX b), 4⟩
  | .eorAbs a => ⟨0x4D, .eor, .mem (.absolute a), 4⟩
  | .eorAbsx a => ⟨0x5D, .eor, .mem (.absoluteX a), 4⟩
  | .eorAbsy a => ⟨0x59, .eor, .mem (.absoluteY a), 4⟩
  | .eorIzx b => ⟨0x41, .eor, .mem (.indexedIndirect b), 6⟩
  | .eorIzy b => ⟨0x51, .eor, .mem (.indirectIndexed b), 5⟩
  | .bitZp b => ⟨0x24, .bit, .mem (.zeroPage b), 3⟩
  | .bitAbs a => ⟨0x2C, .bit, .mem (.absolute a), 4⟩
  | .aslZp b => ⟨0x06, .asl, .mem (.zeroPage b), 5⟩
  | .aslZpx b => ⟨0x16, .asl, .mem (.zeroPageX b), 6⟩
  | .aslAbs a => ⟨0x0E, .asl, .mem (.absolute a), 6⟩
  | .aslAbsx a => ⟨0x1E, .asl, .mem (.absoluteX a), 7⟩
  | .aslAcc => ⟨0x0A, .asl, .accumulator, 2⟩
  | .lsrZp b => ⟨0x46, .lsr, .mem (.zeroPage b), 5⟩
  | .lsrZpx b => ⟨0x56, .lsr, .mem (.zeroPageX b), 6⟩
  | .lsrAbs a => ⟨0x4E, .lsr, .mem (.absolute a), 6⟩
  | .lsrAbsx a => ⟨0x5E, .lsr, .mem (.absoluteX a), 7⟩
  | .lsrAcc => ⟨0x4A, .lsr, .accumulator, 2⟩
  | .rolZp b => ⟨0x26, .rol, .mem (.zeroPage b), 5⟩
  | .rolZpx b => ⟨0x36, .rol, .mem (.zeroPageX b), 6⟩
  | .rolAbs a => ⟨0x2E, .rol, .mem (.absolute a), 6⟩
  | .rolAbsx a => ⟨0x3E, .rol, .mem (.absoluteX a), 7⟩
  | .rolAcc => ⟨0x2A, .rol, .accumulator, 2⟩
  | .rorZp b => ⟨0x66, .ror, .mem (.zeroPage b), 5⟩
  | .rorZpx b => ⟨0x76, .ror, .mem (.zeroPageX b), 6⟩
  | .rorAbs a => ⟨0x6E, .ror, .mem (.absolute a), 6⟩
  | .rorAbsx a => ⟨0x7E, .ror, .mem (.absoluteX a), 7⟩
  | .rorAcc => ⟨0x6A, .ror, .accumulator, 2⟩
  | .cmpImm v => ⟨0xC9, .cmp, .mem (.immediate v), 2⟩
  | .cmpZp b => ⟨0xC5, .cmp, .mem (.zeroPage b), 3⟩
  | .cmpZpx b => ⟨0xD5, .cmp, .mem (.zeroPageX b), 4⟩
  | .cmpAbs a => ⟨0xCD, .cmp, .mem (.absolute a), 4⟩
  | .cmpAbsx a => ⟨0xDD, .cmp, .mem (.absoluteX a), 4⟩
  | .cmpAbsy a => ⟨0xD9, .cmp, .mem (.absoluteY a), 4⟩
  | .cmpIzx b => ⟨0xC1, .cmp, .mem (.indexedIndirect b), 6⟩
  | .cmpIzy b => ⟨0xD1, .cmp, .mem (.indirectIndexed b), 5⟩
  | .cpxImm v => ⟨0xE0, .cpx, .mem (.immediate v), 2⟩
  | .cpxZp b => ⟨0xE4, .cpx, .mem (.zeroPage b), 3⟩
  | .cpxAbs a => ⟨0xEC, .cpx, .mem (.absolute a), 4⟩
  | .cpyImm v => ⟨0xC0, .cpy, .mem (.immediate v), 2⟩
  | .cpyZp b => ⟨0xC4, .cpy, .mem (.zeroPage b), 3⟩
  | .cpyAbs a => ⟨0xCC, .cpy, .mem (.absolute a), 4⟩
  | .incZp b => ⟨0xE6, .inc, .mem (.zeroPage b), 5⟩
  | .incZpx b => ⟨0xF6, .inc, .mem (.zeroPageX b), 6⟩
  | .incAbs a => ⟨0xEE, .inc, .mem (.absolute a), 6⟩
  | .incAbsx a => ⟨0xFE, .inc, .mem (.absoluteX a), 7⟩
  | .decZp b => ⟨0xC6, .dec, .mem (.zeroPage b), 5⟩
  | .decZpx b => ⟨0xD6, .dec, .mem (.zeroPageX b), 6⟩
  | .decAbs a => ⟨0xCE, .dec, .mem (.absolute a), 6⟩
  | .decAbsx a => ⟨0xDE, .dec, .mem (.absoluteX a), 7⟩
  | .inx => ⟨0xE8, .inx, .implied, 2⟩
  | .dex => ⟨0xCA, .dex, .implied, 2⟩
  | .iny => ⟨0xC8, .iny, .implied, 2⟩
  | .dey => ⟨0x88, .dey, .implied, 2⟩
  | .bcc off => ⟨0x90, .bcc, .mem (.relative off), 2⟩
  | .bcs off => ⟨0xB0, .bcs, .mem (.relative off), 2⟩
  | .beq off => ⟨0xF0, .beq, .mem (.relative off), 2⟩
  | .bmi off => ⟨0x30, .bmi, .mem (.relative off), 2⟩
  | .bne off => ⟨0xD0, .bne, .mem (.relative off), 2⟩
  | .bpl off => ⟨0x10, .bpl, .mem (.relative off), 2⟩
  | .bvc off => ⟨0x50, .bvc, .mem (.relative off), 2⟩
  | .bvs off => ⟨0x70, .bvs, .mem (.relative off), 2⟩
  | .jmpAbs a => ⟨0x4C, .jmp, .mem (.absolute a), 3⟩
  | .jmpInd a => ⟨0x6C, .jmp, .mem (.indirect a), 5⟩
  | .jsr a => ⟨0x20, .jsr, .mem (.absolute a), 6⟩
  | .rts => ⟨0x60, .rts, .implied, 6⟩
  | .pha => ⟨0x48, .pha, .implied, 3⟩
  | .php => ⟨0x08, .php, .implied, 3⟩
  | .pla => ⟨0x68, .pla, .implied, 4⟩
  | .plp => ⟨0x28, .plp, .implied, 4⟩
  | .brk => ⟨0x00, .brk, .implied, 7⟩
  | .rti => ⟨0x40, .rti, .implied, 6⟩
  | .tax => ⟨0xAA, .tax, .implied, 2⟩
  | .tay => ⟨0xA8, .tay, .implied, 2⟩
  | .tsx => ⟨0xBA, .tsx, .implied, 2⟩
  | .txa => ⟨0x8A, .txa, .implied, 2⟩
  | .txs => ⟨0x9A, .txs, .implied, 2⟩
  | .tya => ⟨0x98, .tya, .implied, 2⟩
  | .clc => ⟨0x18, .clc, .implied, 2⟩
  | .sec => ⟨0x38, .sec, .implied, 2⟩
  | .cli => ⟨0x58, .cli, .implied, 2⟩
  | .sei => ⟨0x78, .sei, .implied, 2⟩
  | .clv => ⟨0xB8, .clv, .implied, 2⟩
  | .cld => ⟨0xD8, .cld, .implied, 2⟩
  | .sed => ⟨0xF8, .sed, .implied, 2⟩
  | .nop => ⟨0xEA, .nop, .implied, 2⟩
  | .laxZp b => ⟨0xA7, .lax, .mem (.zeroPage b), 3⟩
  | .laxZpy b => ⟨0xB7, .lax, .mem (.zeroPageY b), 4⟩
  | .laxAbs a => ⟨0xAF, .lax, .mem (.absolute a), 4⟩
  | .laxAbsy a => ⟨0xBF, .lax, .mem (.absoluteY a), 4⟩
  | .laxIzx b => ⟨0xA3, .lax, .mem (.indexedIndirect b), 6⟩
  | .laxIzy b => ⟨0xB3, .lax, .mem (.indirectIndexed b), 5⟩
  | .saxZp b => ⟨0x87, .sax, .mem (.zeroPage b), 3⟩
  | .saxZpy b => ⟨0x97, .sax, .mem (.zeroPageY b), 4⟩
  | .saxAbs a => ⟨0x8F, .sax, .mem (.absolute a), 4⟩
  | .saxIzx b => ⟨0x83, .sax, .mem (.indexedIndirect b), 6⟩
  | .dcpZp b => ⟨0xC7, .dcp, .mem (.zeroPage b), 5⟩
  | .dcpZpx b => ⟨0xD7, .dcp, .mem (.zeroPageX b), 6⟩
  | .dcpAbs a => ⟨0xCF, .dcp, .mem (.absolute a), 6⟩
  | .dcpAbsx a => ⟨0xDF, .dcp, .mem (.absoluteX a), 7⟩
  | .dcpAbsy a => ⟨0xDB, .dcp, .mem (.absoluteY a), 7⟩
  | .dcpIzx b => ⟨0xC3, .dcp, .mem (.indexedIndirect b), 8⟩
  | .dcpIzy b => ⟨0xD3, .dcp, .mem (.indirectIndexed b), 8⟩
  | .iscZp b => ⟨0xE7, .isc, .mem (.zeroPage b), 5⟩
  | .iscZpx b => ⟨0xF7, .isc, .mem (.zeroPageX b), 6⟩
  | .iscAbs a => ⟨0xEF, .isc, .mem (.absolute a), 6⟩
  | .iscAbsx a => ⟨0xFF, .isc, .mem (.absoluteX a), 7⟩
  | .iscAbsy a => ⟨0xFB, .isc, .mem (.absoluteY a), 7⟩
  | .iscIzx b => ⟨0xE3, .isc, .mem (.indexedIndirect b), 8⟩
  | .iscIzy b => ⟨0xF3, .isc, .mem (.indirectIndexed b), 8⟩

/-- The mnemonic of an instruction. -/
def Instr.mnemonic (i : Instr) : Mnemonic := i.desc.mnemonic

/-- The mode of an instruction, with its operand. -/
def Instr.operand (i : Instr) : Operand := i.desc.operand

/-- The length in bytes, `1 + n` (R90). -/
def Instr.length (i : Instr) : Nat := 1 + i.operand.count

/-- The base cycle count (R122). -/
def Instr.baseCycles (i : Instr) : Nat := i.desc.cycles

/-! ## The opcode map (R92, R93, R119) -/

/-- A cell of the map: which instruction the byte selects, once its operand bytes are read. -/
inductive Form where
  | noOperand (i : Instr) | oneByte (mk : Byte → Instr) | address (mk : Addr → Instr)

/-- The instruction a cell gives with the two bytes after the opcode (R91: low byte first); a shorter one leaves them unread. -/
def Form.build : Form → Byte → Byte → Instr
  | .noOperand i, _, _ => i
  | .oneByte mk, b1, _ => mk b1
  | .address mk, b1, b2 => mk (joinBytes b2 b1)

/-- A cell of a one-byte instruction. -/
def op1 (i : Instr) : Option Form := some (.noOperand i)

/-- A cell of a two-byte instruction. -/
def op2 (mk : Byte → Instr) : Option Form := some (.oneByte mk)

/-- A cell of a three-byte instruction. -/
def op3 (mk : Addr → Instr) : Option Form := some (.address mk)

/-- A cell with no descriptor: an illegal byte (R117). -/
def ill : Option Form := none

/-- Bytes 0x00 to 0x0F of R119. -/
def opcodeRow0 : List (Option Form) :=
  [op1 .brk, op2 .oraIzx, ill, ill, ill, op2 .oraZp, op2 .aslZp, ill,
   op1 .php, op2 .oraImm, op1 .aslAcc, ill, ill, op3 .oraAbs, op3 .aslAbs, ill]

/-- Bytes 0x10 to 0x1F of R119. -/
def opcodeRow1 : List (Option Form) :=
  [op2 .bpl, op2 .oraIzy, ill, ill, ill, op2 .oraZpx, op2 .aslZpx, ill,
   op1 .clc, op3 .oraAbsy, ill, ill, ill, op3 .oraAbsx, op3 .aslAbsx, ill]

/-- Bytes 0x20 to 0x2F of R119. -/
def opcodeRow2 : List (Option Form) :=
  [op3 .jsr, op2 .andIzx, ill, ill, op2 .bitZp, op2 .andZp, op2 .rolZp, ill,
   op1 .plp, op2 .andImm, op1 .rolAcc, ill, op3 .bitAbs, op3 .andAbs, op3 .rolAbs, ill]

/-- Bytes 0x30 to 0x3F of R119. -/
def opcodeRow3 : List (Option Form) :=
  [op2 .bmi, op2 .andIzy, ill, ill, ill, op2 .andZpx, op2 .rolZpx, ill,
   op1 .sec, op3 .andAbsy, ill, ill, ill, op3 .andAbsx, op3 .rolAbsx, ill]

/-- Bytes 0x40 to 0x4F of R119. -/
def opcodeRow4 : List (Option Form) :=
  [op1 .rti, op2 .eorIzx, ill, ill, ill, op2 .eorZp, op2 .lsrZp, ill,
   op1 .pha, op2 .eorImm, op1 .lsrAcc, ill, op3 .jmpAbs, op3 .eorAbs, op3 .lsrAbs, ill]

/-- Bytes 0x50 to 0x5F of R119. -/
def opcodeRow5 : List (Option Form) :=
  [op2 .bvc, op2 .eorIzy, ill, ill, ill, op2 .eorZpx, op2 .lsrZpx, ill,
   op1 .cli, op3 .eorAbsy, ill, ill, ill, op3 .eorAbsx, op3 .lsrAbsx, ill]

/-- Bytes 0x60 to 0x6F of R119. -/
def opcodeRow6 : List (Option Form) :=
  [op1 .rts, op2 .adcIzx, ill, ill, ill, op2 .adcZp, op2 .rorZp, ill,
   op1 .pla, op2 .adcImm, op1 .rorAcc, ill, op3 .jmpInd, op3 .adcAbs, op3 .rorAbs, ill]

/-- Bytes 0x70 to 0x7F of R119. -/
def opcodeRow7 : List (Option Form) :=
  [op2 .bvs, op2 .adcIzy, ill, ill, ill, op2 .adcZpx, op2 .rorZpx, ill,
   op1 .sei, op3 .adcAbsy, ill, ill, ill, op3 .adcAbsx, op3 .rorAbsx, ill]

/-- Bytes 0x80 to 0x8F of R119. -/
def opcodeRow8 : List (Option Form) :=
  [ill, op2 .staIzx, ill, op2 .saxIzx, op2 .styZp, op2 .staZp, op2 .stxZp, op2 .saxZp,
   op1 .dey, ill, op1 .txa, ill, op3 .styAbs, op3 .staAbs, op3 .stxAbs, op3 .saxAbs]

/-- Bytes 0x90 to 0x9F of R119. -/
def opcodeRow9 : List (Option Form) :=
  [op2 .bcc, op2 .staIzy, ill, ill, op2 .styZpx, op2 .staZpx, op2 .stxZpy, op2 .saxZpy,
   op1 .tya, op3 .staAbsy, op1 .txs, ill, ill, op3 .staAbsx, ill, ill]

/-- Bytes 0xA0 to 0xAF of R119. -/
def opcodeRowA : List (Option Form) :=
  [op2 .ldyImm, op2 .ldaIzx, op2 .ldxImm, op2 .laxIzx, op2 .ldyZp, op2 .ldaZp, op2 .ldxZp, op2 .laxZp,
   op1 .tay, op2 .ldaImm, op1 .tax, ill, op3 .ldyAbs, op3 .ldaAbs, op3 .ldxAbs, op3 .laxAbs]

/-- Bytes 0xB0 to 0xBF of R119. -/
def opcodeRowB : List (Option Form) :=
  [op2 .bcs, op2 .ldaIzy, ill, op2 .laxIzy, op2 .ldyZpx, op2 .ldaZpx, op2 .ldxZpy, op2 .laxZpy,
   op1 .clv, op3 .ldaAbsy, op1 .tsx, ill, op3 .ldyAbsx, op3 .ldaAbsx, op3 .ldxAbsy, op3 .laxAbsy]

/-- Bytes 0xC0 to 0xCF of R119. -/
def opcodeRowC : List (Option Form) :=
  [op2 .cpyImm, op2 .cmpIzx, ill, op2 .dcpIzx, op2 .cpyZp, op2 .cmpZp, op2 .decZp, op2 .dcpZp,
   op1 .iny, op2 .cmpImm, op1 .dex, ill, op3 .cpyAbs, op3 .cmpAbs, op3 .decAbs, op3 .dcpAbs]

/-- Bytes 0xD0 to 0xDF of R119. -/
def opcodeRowD : List (Option Form) :=
  [op2 .bne, op2 .cmpIzy, ill, op2 .dcpIzy, ill, op2 .cmpZpx, op2 .decZpx, op2 .dcpZpx,
   op1 .cld, op3 .cmpAbsy, ill, op3 .dcpAbsy, ill, op3 .cmpAbsx, op3 .decAbsx, op3 .dcpAbsx]

/-- Bytes 0xE0 to 0xEF of R119. -/
def opcodeRowE : List (Option Form) :=
  [op2 .cpxImm, op2 .sbcIzx, ill, op2 .iscIzx, op2 .cpxZp, op2 .sbcZp, op2 .incZp, op2 .iscZp,
   op1 .inx, op2 .sbcImm, op1 .nop, ill, op3 .cpxAbs, op3 .sbcAbs, op3 .incAbs, op3 .iscAbs]

/-- Bytes 0xF0 to 0xFF of R119. -/
def opcodeRowF : List (Option Form) :=
  [op2 .beq, op2 .sbcIzy, ill, op2 .iscIzy, ill, op2 .sbcZpx, op2 .incZpx, op2 .iscZpx,
   op1 .sed, op3 .sbcAbsy, ill, op3 .iscAbsy, ill, op3 .sbcAbsx, op3 .incAbsx, op3 .iscAbsx]

/-- The whole map of R119, the byte 0x00 first. -/
def opcodeMap : List (Option Form) :=
  opcodeRow0 ++ opcodeRow1 ++ opcodeRow2 ++ opcodeRow3 ++ opcodeRow4 ++ opcodeRow5 ++ opcodeRow6 ++ opcodeRow7 ++
  opcodeRow8 ++ opcodeRow9 ++ opcodeRowA ++ opcodeRowB ++ opcodeRowC ++ opcodeRowD ++ opcodeRowE ++ opcodeRowF

/-- Lookup by direct indexing; absence is the sole sign of an illegal opcode (R93). -/
def lookup (op : Byte) : Option Form := (opcodeMap[op.toNat]?).join

/-! ## The decoder -/

/-- The instruction an opcode byte and the two bytes after it give under a setting of `UNOFFICIAL_EXEC`; `none` where
the byte is illegal (R93, R115, R117). -/
def decodeWith (unofficialExec : Bool) (op b1 b2 : Byte) : Option Instr :=
  match lookup op with
  | none => none
  | some f => if (f.build b1 b2).wfWith unofficialExec then some (f.build b1 b2) else none

/-- Why a byte string is no instruction. -/
inductive DecodeError where
  /-- The string is empty. -/
  | noBytes
  /-- The opcode byte has no descriptor (R117, R270). -/
  | illegalOpcode (op : Byte)
  /-- The string ends before the operand bytes do. The core never meets this: memory has no end (R35, R64). -/
  | truncated (op : Byte)
deriving DecidableEq, Repr

/-- The decoder on any byte string: the instruction and the bytes after it, or the reason there is none. -/
def decode (bytes : List Byte) : Except DecodeError (Instr × List Byte) :=
  match bytes with
  | [] => .error .noBytes
  | op :: rest =>
    match decodeWith Config.unofficialExec op (rest.getD 0 0) (rest.getD 1 0) with
    | none => .error (.illegalOpcode op)
    | some i => if rest.length < i.operand.count then .error (.truncated op) else .ok (i, rest.drop i.operand.count)

/-- What the decoder reads from an instruction whose bytes are numbered as spec/opcode_table.json numbers them: the first
byte is bits 7..0, the next bits 15..8. Bits from `nbits` up are 0. -/
def decodeTableWord (nbits w : Nat) : Option Instr :=
  decodeWith Config.unofficialExec (BitVec.ofNat 8 (w % 2 ^ nbits)) (BitVec.ofNat 8 (w % 2 ^ nbits / 256))
    (BitVec.ofNat 8 (w % 2 ^ nbits / 65536))

/-! ## The encoder -/

/-- The bytes of an instruction: opcode, then operand bytes (R90, R91). -/
def encode (i : Instr) : List Byte := i.desc.opcode :: i.operand.bytes

end Sys2Proof
end

