-- ==== Sys2Proof/Machine/State.lean ====
section
/-! DEFINITION. The state of the core (10_state.md R30: the tuple (A, X, Y, SP, P, PC), plus the memory behind the bus) and the
reasons a step can stop. -/

namespace Sys2Proof.Machine

/-- The 65,536 bytes behind the bus (20_memory.md R60): a list of address and byte, in the canonical form of `Memory.wf`. -/
abbrev Memory := List Host.Cell

/-- The canonical form from a lower bound `low` on: addresses strictly rise, stay below 65536, and no entry equals what an unlisted
address reads as. -/
def Memory.wfFrom (low : Nat) : Memory → Bool
  | [] => true
  | (a, v) :: rest => decide (low ≤ a) && decide (a < 65536) && (v != Config.unlistedByte) && Memory.wfFrom (a + 1) rest

/-- The canonical form: equal memories are equal lists. -/
def Memory.wf (m : Memory) : Bool := Memory.wfFrom 0 m

/-- The seven named flags of P (R37). Bit 5 has no accessor (R40). -/
inductive Flag where
  | c | z | i | d | b | v | n
deriving DecidableEq, Repr

/-- The architectural state (R30). Every register has one home here; P is the whole status byte (R36), reached flag by flag through
`getFlag` and `setFlag`. -/
structure State where
  /-- `A`, the accumulator (R31). -/
  a : Byte
  /-- `X`, an index register (R32). -/
  x : Byte
  /-- `Y`, an index register (R33). -/
  y : Byte
  /-- `SP`, the stack pointer, an offset into page 1 (R34). -/
  sp : Byte
  /-- `P`, the status register (R36, R37). -/
  p : Byte
  /-- `PC`, the program counter (R35). -/
  pc : Addr
  /-- The memory behind the bus (R60 to R64). -/
  mem : Memory
deriving DecidableEq, Repr

/-- Why the machine stops. -/
inductive Fault where
  /-- The fetched byte `op` has no descriptor (60_exceptions.md R270). Raised by `step` alone, before anything changes: the state
  the host sees afterwards is the state it stepped (R132). It is the core's one error (R271), so the stop is safe. -/
  | illegalOpcode (op : Byte)
deriving DecidableEq, Repr

/-- Why a step has no meaning in the model. -/
inductive Refusal where
  /-- An instruction the model gives no meaning. Raised by no arm of `exec`: every row of the table has its meaning. Safe. -/
  | notModelled (mnemonic : String)
deriving DecidableEq, Repr

/-- What a step answers. -/
abbrev Result := Host.Outcome State Fault Refusal

/-- A freshly constructed core over the memory image `image` (R50, R303): PC is 0x0000, not the reset vector (R304). -/
def State.powerOn (image : Memory) : State :=
  { a := 0x00, x := 0x00, y := 0x00, sp := 0xFD, p := 0x34, pc := 0x0000, mem := image }

/-- The machine right after reset: the power-on registers (R50) over a memory that lists nothing, PC loaded from the reset vector
(R300). The vector's bytes are unlisted, so PC is 0x0000, which is also its power-on value. (log 1, log 2) -/
def State.reset : State :=
  { a := 0x00, x := 0x00, y := 0x00, sp := 0xFD, p := 0x34, pc := 0x0000, mem := [] }

end Sys2Proof.Machine
end

