-- ==== Sys2Proof/Machine/Flags.lean ====
section
/-! DEFINITION. Every flag computation of the spec, on the status byte P and operand bytes alone: the accessors (10_state.md R37, R40),
SetZN (R42), the adder (42_arithmetic.md R161), the comparison (45_compare.md R190), BIT (R173), and the copies of P that are
pushed and pulled (R231, R233). -/

namespace Sys2Proof.Machine

/-- The bit of P that holds a flag (R37). -/
def Flag.bit : Flag → Nat
  | .c => 0 | .z => 1 | .i => 2 | .d => 3 | .b => 4 | .v => 6 | .n => 7

/-- `get_flag` of R40. -/
def getFlag (p : Byte) (f : Flag) : Bool := p.getLsbD f.bit

/-- `set_flag` of R40: exactly the one bit of P is written. -/
def setFlag (p : Byte) (f : Flag) (on : Bool) : Byte :=
  if on then p ||| BitVec.ofNat 8 (2 ^ f.bit) else p &&& ~~~(BitVec.ofNat 8 (2 ^ f.bit))

/-- A flag read as 0 or 1 (R40). -/
def flagNat (p : Byte) (f : Flag) : Nat := (getFlag p f).toNat

/-- `SetZN(v)` of R42. -/
def setZN (p v : Byte) : Byte := setFlag (setFlag p .z (v == 0)) .n (v[7])

/-- C from the bit shifted out, then SetZN of the result: the flags of the shifts (R180 to R183) and of Compare. -/
def setCZN (p : Byte) (carry : Bool) (r : Byte) : Byte := setZN (setFlag p .c carry) r

/-! ## AddWithCarry (R161) -/

/-- `sum`, 0..511. -/
def adderSum (p a b : Byte) : Nat := a.toNat + b.toNat + flagNat p .c

/-- `r`, the sum modulo 256. -/
def adderResult (p a b : Byte) : Byte := BitVec.ofNat 8 (adderSum p a b)

/-- The carry out: the sum exceeds 255. -/
def adderCarry (p a b : Byte) : Bool := decide (255 < adderSum p a b)

/-- The signed sum of the operands and the carry in. -/
def adderSigned (p a b : Byte) : Int := a.toInt + b.toInt + (flagNat p .c : Int)

/-- Signed overflow: the true sum does not fit in -128..127. -/
def adderOverflow (p a b : Byte) : Bool := decide (adderSigned p a b < -128 ∨ 127 < adderSigned p a b)

/-- P after AddWithCarry: C, V, Z and N written. -/
def adderFlags (p a b : Byte) : Byte :=
  setZN (setFlag (setFlag p .c (adderCarry p a b)) .v (adderOverflow p a b)) (adderResult p a b)

/-! ## Compare, BIT and the shifts -/

/-- P after `Compare(reg, v)` of R190: C is the unsigned `reg >= v`, Z and N those of the wrapped difference. -/
def compareFlags (p reg v : Byte) : Byte := setCZN p (decide (v.toNat ≤ reg.toNat)) (reg - v)

/-- P after BIT (R173): Z from `A & v`, N and V from v itself. -/
def bitFlags (p a v : Byte) : Byte :=
  setFlag (setFlag (setFlag p .z ((a &&& v) == 0)) .n (v[7])) .v (v[6])

/-- `wrap8(v << 1)` (R180). -/
def aslResult (v : Byte) : Byte := v <<< 1

/-- `v >> 1` (R181). -/
def lsrResult (v : Byte) : Byte := v >>> 1

/-- `wrap8((v << 1) | c)` (R182). -/
def rolResult (c : Bool) (v : Byte) : Byte := (v <<< 1) ||| BitVec.ofNat 8 c.toNat

/-- `(v >> 1) | (c << 7)` (R183). -/
def rorResult (c : Bool) (v : Byte) : Byte := (v >>> 1) ||| (BitVec.ofNat 8 c.toNat <<< 7)

/-! ## Whole copies of P -/

/-- The copy of P that PHP and BRK push: bit 4 set (R231, R234). -/
def pushedStatus (p : Byte) : Byte := p ||| 0x10

/-- What PLP and RTI store of a pulled byte: bit 5 set, BIT5_POLICY = ForceOne (R38, D1), bit 4 as pulled (R39, D19). -/
def pulledStatus (v : Byte) : Byte := v ||| 0x20

end Sys2Proof.Machine
end

