-- ==== Sys2Proof/Machine/Ops.lean ====
section
/-! DEFINITION. The named operations over memory and registers: the bus (20_memory.md R61, R62), register writes, the stack
(48_stack_subroutine_interrupt.md R225 to R227), the fetch (40_execution_cycle.md R131), the PC advance (R133), the reset
command (70_reset_and_hazards.md R300), and taking BRK's interrupt and returning from it (R234, R235, R272, R273). -/

namespace Sys2Proof.Machine

/-! ## Memory -/

/-- The byte at an address: the listed one, or the one unlisted addresses read as. -/
def Memory.find : Memory → Nat → Byte
  | [], _ => Config.unlistedByte
  | (k, v) :: rest, a => if k = a then v else Memory.find rest a

/-- The list without any entry for `a`. -/
def Memory.remove : Memory → Nat → Memory
  | [], _ => []
  | (k, v) :: rest, a => if k = a then Memory.remove rest a else (k, v) :: Memory.remove rest a

/-- The list with an entry for `a` put before the first higher address. -/
def Memory.insert : Memory → Nat → Byte → Memory
  | [], a, v => [(a, v)]
  | (k, w) :: rest, a, v => if a < k then (a, v) :: (k, w) :: rest else (k, w) :: Memory.insert rest a v

/-- `bus.read(a)` (R61, R62): every address has a value and reading changes nothing (R64). -/
def Memory.read (m : Memory) (a : Addr) : Byte := m.find a.toNat

/-- `bus.write(a, v)` (R61, R62). The canonical form is kept: the value an unlisted address reads as leaves no entry. -/
def Memory.write (m : Memory) (a : Addr) (v : Byte) : Memory :=
  if v = Config.unlistedByte then m.remove a.toNat else (m.remove a.toNat).insert a.toNat v

/-- Bytes written at `a` and on, addresses wrapping modulo 65536 (R73). -/
def Memory.writeBytes (m : Memory) (a : Addr) : List Byte → Memory
  | [] => m
  | v :: rest => Memory.writeBytes (m.write a v) (a + 1) rest

/-! ## Register writes -/

/-- `A <- v`. -/
def State.setA (s : State) (v : Byte) : State := { s with a := v }

/-- `X <- v`. -/
def State.setX (s : State) (v : Byte) : State := { s with x := v }

/-- `Y <- v`. -/
def State.setY (s : State) (v : Byte) : State := { s with y := v }

/-- `SP <- v`. -/
def State.setSp (s : State) (v : Byte) : State := { s with sp := v }

/-- `P <- v`. -/
def State.setP (s : State) (v : Byte) : State := { s with p := v }

/-- `PC <- v`. -/
def State.setPc (s : State) (v : Addr) : State := { s with pc := v }

/-- The memory replaced. -/
def State.setMem (s : State) (m : Memory) : State := { s with mem := m }

/-- A flag of P (R40). -/
def State.flag (s : State) (f : Flag) : Bool := getFlag s.p f

/-- `P.F <- on` (R40). -/
def State.putFlag (s : State) (f : Flag) (on : Bool) : State := s.setP (setFlag s.p f on)

/-- `SetZN(v)` on the state (R42). -/
def State.putZN (s : State) (v : Byte) : State := s.setP (setZN s.p v)

/-! ## The bus and PC -/

/-- `MemRead(a, 1)` (R10, R61). -/
def State.readByte (s : State) (a : Addr) : Byte := s.mem.read a

/-- `MemWrite(a, 1, v)` (R10, R61). -/
def State.writeByte (s : State) (a : Addr) (v : Byte) : State := s.setMem (s.mem.write a v)

/-- A little-endian word whose bytes stand at `lo` and `hi` (R65, R66). -/
def State.readWord (s : State) (lo hi : Addr) : Addr := joinBytes (s.readByte hi) (s.readByte lo)

/-- The default PC advance past `n` operand bytes, modulo 65536 (R133, D3). -/
def State.advance (s : State) (n : Nat) : State := s.setPc (s.pc + 1 + BitVec.ofNat 16 n)

/-- The instruction at PC: the opcode byte indexes the map, the operand bytes follow with wrapping addresses (R90, R131);
`none` where the opcode is illegal (R117). Reading all three bytes is unobservable, since reads have no effect (R62; log 10). -/
def State.fetch (s : State) : Option Instr :=
  decodeWith Config.unofficialExec (s.readByte s.pc) (s.readByte (s.pc + 1)) (s.readByte (s.pc + 2))

/-! ## The stack (R225 to R227) -/

/-- The address SP designates, `0x0100 + SP` (R34). -/
def stackAddr (sp : Byte) : Addr := 0x0100 + zextAddr sp

/-- `Push(v)` of R225. -/
def State.push (s : State) (v : Byte) : State := (s.writeByte (stackAddr s.sp) v).setSp (s.sp - 1)

/-- The state after `Pull()` of R226. -/
def State.pull (s : State) : State := s.setSp (s.sp + 1)

/-- The byte `Pull()` returns: the one SP designates after the increment (R226). -/
def State.pulledByte (s : State) : Byte := s.readByte (stackAddr (s.sp + 1))

/-- `Push(hi(w)); Push(lo(w))` (R67, R228). -/
def State.pushWord (s : State) (w : Addr) : State := (s.push (hiByte w)).push (loByte w)

/-- The word two pulls return, low byte first (R229). -/
def State.pulledWord (s : State) : Addr := joinBytes s.pull.pulledByte s.pulledByte

/-! ## Interrupt entry and return (R234, R235, R272, R273) -/

/-- The IRQ/BRK vector's first address (R71). -/
def irqVector : Addr := 0xFFFE

/-- The reset vector's first address (R71). -/
def resetVector : Addr := 0xFFFC

/-- Taking the interrupt with return address `r` (R272): r high, r low and P with bit 4 set are pushed, I is set, PC is loaded
from the IRQ/BRK vector. P itself keeps every other bit. -/
def State.takeInterrupt (s : State) (r : Addr) : State :=
  let pushed := (s.pushWord r).push (pushedStatus s.p)
  (pushed.putFlag .i true).setPc (pushed.readWord irqVector (irqVector + 1))

/-- Returning from an interrupt (R273): P from the first pulled byte with bit 5 set, then PC from the next two, with no +1. -/
def State.returnFromInterrupt (s : State) : State :=
  ((s.pull.setP (pulledStatus s.pulledByte)).pull.pull).setPc s.pull.pulledWord

/-! ## The reset command (R300) -/

/-- `reset(bus)`: PC is loaded from 0xFFFC and 0xFFFD; nothing else changes. -/
def State.resetCommand (s : State) : State := s.setPc (s.readWord resetVector (resetVector + 1))

end Sys2Proof.Machine
end

