-- ==== Sys2Proof/Machine/Operands.lean ====
section
/-! DEFINITION. Every operand form: the addressing-mode resolver (30_encoding.md R96 to R110) and the access classes
of 40_execution_cycle.md R138, each taking the handler of an instruction. A meaning is called with PC = pc0, the address
of the opcode byte; the resolver uses that PC, and the class operation then makes the default advance of R133
before the handler runs (log 4). -/

namespace Sys2Proof.Machine

/-- The address of an Indirect pointer's high byte: the successor within the pointer's page (R106). -/
def samePageNext (ptr : Addr) : Addr := (ptr &&& 0xFF00) ||| ((ptr + 1) &&& 0x00FF)

/-- The word a zero-page pointer holds, its successor wrapping in page 0 (R107, R108). -/
def State.zeroPageWord (s : State) (zp : Byte) : Addr := s.readWord (zextAddr zp) (zextAddr (zp + 1))

/-- The effective address of a mode with operand bytes (R99 to R109), PC being pc0. -/
def effAddr (m : MemOperand) (s : State) : Addr :=
  match m with
  | .immediate _ => s.pc + 1
  | .zeroPage b => zextAddr b
  | .zeroPageX b => zextAddr (b + s.x)
  | .zeroPageY b => zextAddr (b + s.y)
  | .absolute a => a
  | .absoluteX a => a + zextAddr s.x
  | .absoluteY a => a + zextAddr s.y
  | .indirect a => s.readWord a (samePageNext a)
  | .indexedIndirect b => s.zeroPageWord (b + s.x)
  | .indirectIndexed b => s.zeroPageWord b + zextAddr s.y
  | .relative off => s.pc + 2 + sextAddr off

/-- `Resolve(mode)` of R96: the effective address, NONE for Implied and Accumulator (R97, R98, D17), and the operand byte count. -/
def resolve (o : Operand) (s : State) : Option Addr × Nat :=
  match o with
  | .implied => (none, 0)
  | .accumulator => (none, 0)
  | .mem m => (some (effAddr m s), m.count)

/-- The memory operand M of R11. An immediate value is the operand byte the instruction carries, which the step read at
pc0 + 1 (R99; log 3). -/
def operandValue (m : MemOperand) (s : State) : Byte :=
  match m with
  | .immediate v => v
  | .zeroPage _ | .zeroPageX _ | .zeroPageY _ | .absolute _ | .absoluteX _ | .absoluteY _ | .indirect _
  | .indexedIndirect _ | .indirectIndexed _ | .relative _ => s.readByte (effAddr m s)

/-! ## The access classes (R138) -/

/-- Read class: M is read once and given to the handler. -/
def readClass (m : MemOperand) (handler : Byte → State → State) (s : State) : Result :=
  .next (handler (operandValue m s) (s.advance m.count))

/-- Store class: `v` is written once at the effective address, which is not read. -/
def storeClass (m : MemOperand) (v : Byte) (s : State) : Result :=
  .next ((s.advance m.count).writeByte (effAddr m s) v)

/-- Read-modify-write class: the byte at the effective address is read once, its image under `f` is written back once, and the
handler gets both bytes. -/
def modifyClass (m : MemOperand) (f : Byte → Byte) (handler : Byte → Byte → State → State) (s : State) : Result :=
  .next (handler (s.readByte (effAddr m s)) (f (s.readByte (effAddr m s)))
    ((s.advance m.count).writeByte (effAddr m s) (f (s.readByte (effAddr m s)))))

/-- The Accumulator form of a shift: the target is A (R98). -/
def accumulatorClass (f : Byte → Byte) (handler : Byte → Byte → State → State) (s : State) : Result :=
  .next (handler s.a (f s.a) ((s.advance 0).setA (f s.a)))

/-- An Implied instruction: no operand byte, no effective address (R97). -/
def impliedClass (handler : State → State) (s : State) : Result := .next (handler (s.advance 0))

/-- Control with a target: the handler gets the resolved address (R134). -/
def targetClass (m : MemOperand) (handler : Addr → State → State) (s : State) : Result :=
  .next (handler (effAddr m s) (s.advance m.count))

end Sys2Proof.Machine
end

