-- ==== Sys2Proof/Machine/Arithmetic.lean ====
section
/-! DEFINITION. ADC and SBC (42_arithmetic.md R160 to R163). D is read by neither (R160). One definition per row of
the opcode table; a row in several modes is one line over its mnemonic's shared operation. -/

namespace Sys2Proof.Machine

/-- `AddWithCarry(A, b)` of R161 on the state: A, C, V, Z and N written. -/
def State.addWithCarry (b : Byte) (s : State) : State :=
  (s.setA (adderResult s.p s.a b)).setP (adderFlags s.p s.a b)

/-- ADC (R162): `AddWithCarry(A, M)`. -/
def addToA (m : MemOperand) (s : State) : Result :=
  readClass m State.addWithCarry s

/-- `ADC #$nn` (69): R162, mode R99. -/
def execAdcImm (v : Byte) (s : State) : Result := addToA (.immediate v) s

/-- `ADC $nn` (65): R162, mode R100. -/
def execAdcZp (b : Byte) (s : State) : Result := addToA (.zeroPage b) s

/-- `ADC $nn,X` (75): R162, mode R102. -/
def execAdcZpx (b : Byte) (s : State) : Result := addToA (.zeroPageX b) s

/-- `ADC $hhll` (6D): R162, mode R101. -/
def execAdcAbs (a : Addr) (s : State) : Result := addToA (.absolute a) s

/-- `ADC $hhll,X` (7D): R162, mode R104. -/
def execAdcAbsx (a : Addr) (s : State) : Result := addToA (.absoluteX a) s

/-- `ADC $hhll,Y` (79): R162, mode R105. -/
def execAdcAbsy (a : Addr) (s : State) : Result := addToA (.absoluteY a) s

/-- `ADC ($nn,X)` (61): R162, mode R107. -/
def execAdcIzx (b : Byte) (s : State) : Result := addToA (.indexedIndirect b) s

/-- `ADC ($nn),Y` (71): R162, mode R108. -/
def execAdcIzy (b : Byte) (s : State) : Result := addToA (.indirectIndexed b) s

/-- SBC (R163): `AddWithCarry(A, ~M)`. -/
def subtractFromA (m : MemOperand) (s : State) : Result :=
  readClass m (fun v t => State.addWithCarry (~~~v) t) s

/-- `SBC #$nn` (E9): R163, mode R99. -/
def execSbcImm (v : Byte) (s : State) : Result := subtractFromA (.immediate v) s

/-- `SBC $nn` (E5): R163, mode R100. -/
def execSbcZp (b : Byte) (s : State) : Result := subtractFromA (.zeroPage b) s

/-- `SBC $nn,X` (F5): R163, mode R102. -/
def execSbcZpx (b : Byte) (s : State) : Result := subtractFromA (.zeroPageX b) s

/-- `SBC $hhll` (ED): R163, mode R101. -/
def execSbcAbs (a : Addr) (s : State) : Result := subtractFromA (.absolute a) s

/-- `SBC $hhll,X` (FD): R163, mode R104. -/
def execSbcAbsx (a : Addr) (s : State) : Result := subtractFromA (.absoluteX a) s

/-- `SBC $hhll,Y` (F9): R163, mode R105. -/
def execSbcAbsy (a : Addr) (s : State) : Result := subtractFromA (.absoluteY a) s

/-- `SBC ($nn,X)` (E1): R163, mode R107. -/
def execSbcIzx (b : Byte) (s : State) : Result := subtractFromA (.indexedIndirect b) s

/-- `SBC ($nn),Y` (F1): R163, mode R108. -/
def execSbcIzy (b : Byte) (s : State) : Result := subtractFromA (.indirectIndexed b) s

end Sys2Proof.Machine
end

