-- ==== Sys2Proof/Machine/Branch.lean ====
section
/-! DEFINITION. Branches and jumps (47_branch_jump.md R210 to R219). One definition per row of
the opcode table; a row in several modes is one line over its mnemonic's shared operation. -/

namespace Sys2Proof.Machine

/-- `Branch(cond)` of R210: PC becomes the relative target if the condition holds, else it keeps the default advance. -/
def branch (taken : Bool) (off : Byte) (s : State) : Result :=
  targetClass (.relative off) (fun ea t => if taken then t.setPc ea else t) s

/-- `BCC $tttt` (90, R211): `Branch(P.C == 0)`. -/
def execBcc (off : Byte) (s : State) : Result :=
  branch (!s.flag .c) off s

/-- `BCS $tttt` (B0, R212): `Branch(P.C == 1)`. -/
def execBcs (off : Byte) (s : State) : Result :=
  branch (s.flag .c) off s

/-- `BEQ $tttt` (F0, R213): `Branch(P.Z == 1)`. -/
def execBeq (off : Byte) (s : State) : Result :=
  branch (s.flag .z) off s

/-- `BMI $tttt` (30, R214): `Branch(P.N == 1)`. -/
def execBmi (off : Byte) (s : State) : Result :=
  branch (s.flag .n) off s

/-- `BNE $tttt` (D0, R215): `Branch(P.Z == 0)`. -/
def execBne (off : Byte) (s : State) : Result :=
  branch (!s.flag .z) off s

/-- `BPL $tttt` (10, R216): `Branch(P.N == 0)`. -/
def execBpl (off : Byte) (s : State) : Result :=
  branch (!s.flag .n) off s

/-- `BVC $tttt` (50, R217): `Branch(P.V == 0)`. -/
def execBvc (off : Byte) (s : State) : Result :=
  branch (!s.flag .v) off s

/-- `BVS $tttt` (70, R218): `Branch(P.V == 1)`. -/
def execBvs (off : Byte) (s : State) : Result :=
  branch (s.flag .v) off s

/-- JMP (R219): `PC <- ea`. -/
def jump (m : MemOperand) (s : State) : Result :=
  targetClass m (fun ea t => t.setPc ea) s

/-- `JMP $hhll` (4C): R219, mode R101. -/
def execJmpAbs (a : Addr) (s : State) : Result := jump (.absolute a) s

/-- `JMP ($hhll)` (6C): R219, mode R106. -/
def execJmpInd (a : Addr) (s : State) : Result := jump (.indirect a) s

end Sys2Proof.Machine
end

