-- ==== Sys2Proof/Machine/Compare.lean ====
section
/-! DEFINITION. Compares (45_compare.md R190 to R193). One definition per row of
the opcode table; a row in several modes is one line over its mnemonic's shared operation. -/

namespace Sys2Proof.Machine

/-- `Compare(reg, v)` of R190 on the state: C, Z and N written. -/
def State.compare (s : State) (reg v : Byte) : State := s.setP (compareFlags s.p reg v)

/-- CMP (R191): `Compare(A, M)`; A unchanged. -/
def compareA (m : MemOperand) (s : State) : Result :=
  readClass m (fun v t => t.compare t.a v) s

/-- `CMP #$nn` (C9): R191, mode R99. -/
def execCmpImm (v : Byte) (s : State) : Result := compareA (.immediate v) s

/-- `CMP $nn` (C5): R191, mode R100. -/
def execCmpZp (b : Byte) (s : State) : Result := compareA (.zeroPage b) s

/-- `CMP $nn,X` (D5): R191, mode R102. -/
def execCmpZpx (b : Byte) (s : State) : Result := compareA (.zeroPageX b) s

/-- `CMP $hhll` (CD): R191, mode R101. -/
def execCmpAbs (a : Addr) (s : State) : Result := compareA (.absolute a) s

/-- `CMP $hhll,X` (DD): R191, mode R104. -/
def execCmpAbsx (a : Addr) (s : State) : Result := compareA (.absoluteX a) s

/-- `CMP $hhll,Y` (D9): R191, mode R105. -/
def execCmpAbsy (a : Addr) (s : State) : Result := compareA (.absoluteY a) s

/-- `CMP ($nn,X)` (C1): R191, mode R107. -/
def execCmpIzx (b : Byte) (s : State) : Result := compareA (.indexedIndirect b) s

/-- `CMP ($nn),Y` (D1): R191, mode R108. -/
def execCmpIzy (b : Byte) (s : State) : Result := compareA (.indirectIndexed b) s

/-- CPX (R192): `Compare(X, M)`; X unchanged. -/
def compareX (m : MemOperand) (s : State) : Result :=
  readClass m (fun v t => t.compare t.x v) s

/-- `CPX #$nn` (E0): R192, mode R99. -/
def execCpxImm (v : Byte) (s : State) : Result := compareX (.immediate v) s

/-- `CPX $nn` (E4): R192, mode R100. -/
def execCpxZp (b : Byte) (s : State) : Result := compareX (.zeroPage b) s

/-- `CPX $hhll` (EC): R192, mode R101. -/
def execCpxAbs (a : Addr) (s : State) : Result := compareX (.absolute a) s

/-- CPY (R193): `Compare(Y, M)`; Y unchanged. -/
def compareY (m : MemOperand) (s : State) : Result :=
  readClass m (fun v t => t.compare t.y v) s

/-- `CPY #$nn` (C0): R193, mode R99. -/
def execCpyImm (v : Byte) (s : State) : Result := compareY (.immediate v) s

/-- `CPY $nn` (C4): R193, mode R100. -/
def execCpyZp (b : Byte) (s : State) : Result := compareY (.zeroPage b) s

/-- `CPY $hhll` (CC): R193, mode R101. -/
def execCpyAbs (a : Addr) (s : State) : Result := compareY (.absolute a) s

end Sys2Proof.Machine
end

