-- ==== Sys2Proof/Machine/IncDec.lean ====
section
/-! DEFINITION. Increments and decrements (46_inc_dec.md R200 to R205). One definition per row of
the opcode table; a row in several modes is one line over its mnemonic's shared operation. -/

namespace Sys2Proof.Machine

/-- INC (R200): the byte at ea plus 1, written back; SetZN of it. -/
def incMemory (m : MemOperand) (s : State) : Result :=
  modifyClass m (fun v => v + 1) (fun _ r t => t.putZN r) s

/-- `INC $nn` (E6): R200, mode R100. -/
def execIncZp (b : Byte) (s : State) : Result := incMemory (.zeroPage b) s

/-- `INC $nn,X` (F6): R200, mode R102. -/
def execIncZpx (b : Byte) (s : State) : Result := incMemory (.zeroPageX b) s

/-- `INC $hhll` (EE): R200, mode R101. -/
def execIncAbs (a : Addr) (s : State) : Result := incMemory (.absolute a) s

/-- `INC $hhll,X` (FE): R200, mode R104. -/
def execIncAbsx (a : Addr) (s : State) : Result := incMemory (.absoluteX a) s

/-- DEC (R201): the byte at ea minus 1, written back; SetZN of it. -/
def decMemory (m : MemOperand) (s : State) : Result :=
  modifyClass m (fun v => v - 1) (fun _ r t => t.putZN r) s

/-- `DEC $nn` (C6): R201, mode R100. -/
def execDecZp (b : Byte) (s : State) : Result := decMemory (.zeroPage b) s

/-- `DEC $nn,X` (D6): R201, mode R102. -/
def execDecZpx (b : Byte) (s : State) : Result := decMemory (.zeroPageX b) s

/-- `DEC $hhll` (CE): R201, mode R101. -/
def execDecAbs (a : Addr) (s : State) : Result := decMemory (.absolute a) s

/-- `DEC $hhll,X` (DE): R201, mode R104. -/
def execDecAbsx (a : Addr) (s : State) : Result := decMemory (.absoluteX a) s

/-- `INX` (E8, R202): `X <- wrap8(X + 1); SetZN(X)`. -/
def execInx (s : State) : Result :=
  impliedClass (fun t => (t.setX (t.x + 1)).putZN (t.x + 1)) s

/-- `DEX` (CA, R203): `X <- wrap8(X - 1); SetZN(X)`. -/
def execDex (s : State) : Result :=
  impliedClass (fun t => (t.setX (t.x - 1)).putZN (t.x - 1)) s

/-- `INY` (C8, R204): `Y <- wrap8(Y + 1); SetZN(Y)`. -/
def execIny (s : State) : Result :=
  impliedClass (fun t => (t.setY (t.y + 1)).putZN (t.y + 1)) s

/-- `DEY` (88, R205): `Y <- wrap8(Y - 1); SetZN(Y)`. -/
def execDey (s : State) : Result :=
  impliedClass (fun t => (t.setY (t.y - 1)).putZN (t.y - 1)) s

end Sys2Proof.Machine
end

