-- ==== Sys2Proof/Machine/LoadStore.lean ====
section
/-! DEFINITION. Loads and stores (41_load_store.md R150 to R155). One definition per row of
the opcode table; a row in several modes is one line over its mnemonic's shared operation. -/

namespace Sys2Proof.Machine

/-- LDA (R150): `A <- M; SetZN(A)`. -/
def loadA (m : MemOperand) (s : State) : Result :=
  readClass m (fun v t => (t.setA v).putZN v) s

/-- `LDA #$nn` (A9): R150, mode R99. -/
def execLdaImm (v : Byte) (s : State) : Result := loadA (.immediate v) s

/-- `LDA $nn` (A5): R150, mode R100. -/
def execLdaZp (b : Byte) (s : State) : Result := loadA (.zeroPage b) s

/-- `LDA $nn,X` (B5): R150, mode R102. -/
def execLdaZpx (b : Byte) (s : State) : Result := loadA (.zeroPageX b) s

/-- `LDA $hhll` (AD): R150, mode R101. -/
def execLdaAbs (a : Addr) (s : State) : Result := loadA (.absolute a) s

/-- `LDA $hhll,X` (BD): R150, mode R104. -/
def execLdaAbsx (a : Addr) (s : State) : Result := loadA (.absoluteX a) s

/-- `LDA $hhll,Y` (B9): R150, mode R105. -/
def execLdaAbsy (a : Addr) (s : State) : Result := loadA (.absoluteY a) s

/-- `LDA ($nn,X)` (A1): R150, mode R107. -/
def execLdaIzx (b : Byte) (s : State) : Result := loadA (.indexedIndirect b) s

/-- `LDA ($nn),Y` (B1): R150, mode R108. -/
def execLdaIzy (b : Byte) (s : State) : Result := loadA (.indirectIndexed b) s

/-- LDX (R151): `X <- M; SetZN(X)`. -/
def loadX (m : MemOperand) (s : State) : Result :=
  readClass m (fun v t => (t.setX v).putZN v) s

/-- `LDX #$nn` (A2): R151, mode R99. -/
def execLdxImm (v : Byte) (s : State) : Result := loadX (.immediate v) s

/-- `LDX $nn` (A6): R151, mode R100. -/
def execLdxZp (b : Byte) (s : State) : Result := loadX (.zeroPage b) s

/-- `LDX $nn,Y` (B6): R151, mode R103. -/
def execLdxZpy (b : Byte) (s : State) : Result := loadX (.zeroPageY b) s

/-- `LDX $hhll` (AE): R151, mode R101. -/
def execLdxAbs (a : Addr) (s : State) : Result := loadX (.absolute a) s

/-- `LDX $hhll,Y` (BE): R151, mode R105. -/
def execLdxAbsy (a : Addr) (s : State) : Result := loadX (.absoluteY a) s

/-- LDY (R152): `Y <- M; SetZN(Y)`. -/
def loadY (m : MemOperand) (s : State) : Result :=
  readClass m (fun v t => (t.setY v).putZN v) s

/-- `LDY #$nn` (A0): R152, mode R99. -/
def execLdyImm (v : Byte) (s : State) : Result := loadY (.immediate v) s

/-- `LDY $nn` (A4): R152, mode R100. -/
def execLdyZp (b : Byte) (s : State) : Result := loadY (.zeroPage b) s

/-- `LDY $nn,X` (B4): R152, mode R102. -/
def execLdyZpx (b : Byte) (s : State) : Result := loadY (.zeroPageX b) s

/-- `LDY $hhll` (AC): R152, mode R101. -/
def execLdyAbs (a : Addr) (s : State) : Result := loadY (.absolute a) s

/-- `LDY $hhll,X` (BC): R152, mode R104. -/
def execLdyAbsx (a : Addr) (s : State) : Result := loadY (.absoluteX a) s

/-- STA (R153): `MemWrite(ea, 1, A)`; no flag. -/
def storeA (m : MemOperand) (s : State) : Result :=
  storeClass m s.a s

/-- `STA $nn` (85): R153, mode R100. -/
def execStaZp (b : Byte) (s : State) : Result := storeA (.zeroPage b) s

/-- `STA $nn,X` (95): R153, mode R102. -/
def execStaZpx (b : Byte) (s : State) : Result := storeA (.zeroPageX b) s

/-- `STA $hhll` (8D): R153, mode R101. -/
def execStaAbs (a : Addr) (s : State) : Result := storeA (.absolute a) s

/-- `STA $hhll,X` (9D): R153, mode R104. -/
def execStaAbsx (a : Addr) (s : State) : Result := storeA (.absoluteX a) s

/-- `STA $hhll,Y` (99): R153, mode R105. -/
def execStaAbsy (a : Addr) (s : State) : Result := storeA (.absoluteY a) s

/-- `STA ($nn,X)` (81): R153, mode R107. -/
def execStaIzx (b : Byte) (s : State) : Result := storeA (.indexedIndirect b) s

/-- `STA ($nn),Y` (91): R153, mode R108. -/
def execStaIzy (b : Byte) (s : State) : Result := storeA (.indirectIndexed b) s

/-- STX (R154): `MemWrite(ea, 1, X)`; no flag. -/
def storeX (m : MemOperand) (s : State) : Result :=
  storeClass m s.x s

/-- `STX $nn` (86): R154, mode R100. -/
def execStxZp (b : Byte) (s : State) : Result := storeX (.zeroPage b) s

/-- `STX $nn,Y` (96): R154, mode R103. -/
def execStxZpy (b : Byte) (s : State) : Result := storeX (.zeroPageY b) s

/-- `STX $hhll` (8E): R154, mode R101. -/
def execStxAbs (a : Addr) (s : State) : Result := storeX (.absolute a) s

/-- STY (R155): `MemWrite(ea, 1, Y)`; no flag. -/
def storeY (m : MemOperand) (s : State) : Result :=
  storeClass m s.y s

/-- `STY $nn` (84): R155, mode R100. -/
def execStyZp (b : Byte) (s : State) : Result := storeY (.zeroPage b) s

/-- `STY $nn,X` (94): R155, mode R102. -/
def execStyZpx (b : Byte) (s : State) : Result := storeY (.zeroPageX b) s

/-- `STY $hhll` (8C): R155, mode R101. -/
def execStyAbs (a : Addr) (s : State) : Result := storeY (.absolute a) s

end Sys2Proof.Machine
end

