-- ==== Sys2Proof/Machine/Logical.lean ====
section
/-! DEFINITION. AND, ORA, EOR and BIT (43_logical_bit.md R170 to R173). One definition per row of
the opcode table; a row in several modes is one line over its mnemonic's shared operation. -/

namespace Sys2Proof.Machine

/-- AND (R170): `A <- A & M; SetZN(A)`. -/
def andA (m : MemOperand) (s : State) : Result :=
  readClass m (fun v t => (t.setA (t.a &&& v)).putZN (t.a &&& v)) s

/-- `AND #$nn` (29): R170, mode R99. -/
def execAndImm (v : Byte) (s : State) : Result := andA (.immediate v) s

/-- `AND $nn` (25): R170, mode R100. -/
def execAndZp (b : Byte) (s : State) : Result := andA (.zeroPage b) s

/-- `AND $nn,X` (35): R170, mode R102. -/
def execAndZpx (b : Byte) (s : State) : Result := andA (.zeroPageX b) s

/-- `AND $hhll` (2D): R170, mode R101. -/
def execAndAbs (a : Addr) (s : State) : Result := andA (.absolute a) s

/-- `AND $hhll,X` (3D): R170, mode R104. -/
def execAndAbsx (a : Addr) (s : State) : Result := andA (.absoluteX a) s

/-- `AND $hhll,Y` (39): R170, mode R105. -/
def execAndAbsy (a : Addr) (s : State) : Result := andA (.absoluteY a) s

/-- `AND ($nn,X)` (21): R170, mode R107. -/
def execAndIzx (b : Byte) (s : State) : Result := andA (.indexedIndirect b) s

/-- `AND ($nn),Y` (31): R170, mode R108. -/
def execAndIzy (b : Byte) (s : State) : Result := andA (.indirectIndexed b) s

/-- ORA (R171): `A <- A | M; SetZN(A)`. -/
def orA (m : MemOperand) (s : State) : Result :=
  readClass m (fun v t => (t.setA (t.a ||| v)).putZN (t.a ||| v)) s

/-- `ORA #$nn` (09): R171, mode R99. -/
def execOraImm (v : Byte) (s : State) : Result := orA (.immediate v) s

/-- `ORA $nn` (05): R171, mode R100. -/
def execOraZp (b : Byte) (s : State) : Result := orA (.zeroPage b) s

/-- `ORA $nn,X` (15): R171, mode R102. -/
def execOraZpx (b : Byte) (s : State) : Result := orA (.zeroPageX b) s

/-- `ORA $hhll` (0D): R171, mode R101. -/
def execOraAbs (a : Addr) (s : State) : Result := orA (.absolute a) s

/-- `ORA $hhll,X` (1D): R171, mode R104. -/
def execOraAbsx (a : Addr) (s : State) : Result := orA (.absoluteX a) s

/-- `ORA $hhll,Y` (19): R171, mode R105. -/
def execOraAbsy (a : Addr) (s : State) : Result := orA (.absoluteY a) s

/-- `ORA ($nn,X)` (01): R171, mode R107. -/
def execOraIzx (b : Byte) (s : State) : Result := orA (.indexedIndirect b) s

/-- `ORA ($nn),Y` (11): R171, mode R108. -/
def execOraIzy (b : Byte) (s : State) : Result := orA (.indirectIndexed b) s

/-- EOR (R172): `A <- A ^ M; SetZN(A)`. -/
def eorA (m : MemOperand) (s : State) : Result :=
  readClass m (fun v t => (t.setA (t.a ^^^ v)).putZN (t.a ^^^ v)) s

/-- `EOR #$nn` (49): R172, mode R99. -/
def execEorImm (v : Byte) (s : State) : Result := eorA (.immediate v) s

/-- `EOR $nn` (45): R172, mode R100. -/
def execEorZp (b : Byte) (s : State) : Result := eorA (.zeroPage b) s

/-- `EOR $nn,X` (55): R172, mode R102. -/
def execEorZpx (b : Byte) (s : State) : Result := eorA (.zeroPageX b) s

/-- `EOR $hhll` (4D): R172, mode R101. -/
def execEorAbs (a : Addr) (s : State) : Result := eorA (.absolute a) s

/-- `EOR $hhll,X` (5D): R172, mode R104. -/
def execEorAbsx (a : Addr) (s : State) : Result := eorA (.absoluteX a) s

/-- `EOR $hhll,Y` (59): R172, mode R105. -/
def execEorAbsy (a : Addr) (s : State) : Result := eorA (.absoluteY a) s

/-- `EOR ($nn,X)` (41): R172, mode R107. -/
def execEorIzx (b : Byte) (s : State) : Result := eorA (.indexedIndirect b) s

/-- `EOR ($nn),Y` (51): R172, mode R108. -/
def execEorIzy (b : Byte) (s : State) : Result := eorA (.indirectIndexed b) s

/-- BIT (R173): Z from `A & M`, N and V from M; A unchanged. -/
def bitTest (m : MemOperand) (s : State) : Result :=
  readClass m (fun v t => t.setP (bitFlags t.p t.a v)) s

/-- `BIT $nn` (24): R173, mode R100. -/
def execBitZp (b : Byte) (s : State) : Result := bitTest (.zeroPage b) s

/-- `BIT $hhll` (2C): R173, mode R101. -/
def execBitAbs (a : Addr) (s : State) : Result := bitTest (.absolute a) s

end Sys2Proof.Machine
end

