-- ==== Sys2Proof/Machine/Shift.lean ====
section
/-! DEFINITION. Shifts and rotates by one bit, on A or on memory (44_shift_rotate.md R180 to R183). One definition per row of
the opcode table; a row in several modes is one line over its mnemonic's shared operation. -/

namespace Sys2Proof.Machine

/-- The flags of a shift of `v` to `r` whose bit `out` is shifted out: C, Z and N (R180 to R183). -/
def shiftFlags (out : Nat) (v r : Byte) (s : State) : State := s.setP (setCZN s.p (v.getLsbD out) r)

/-- ASL on memory (R180): bit 7 goes to C. -/
def aslMemory (m : MemOperand) (s : State) : Result :=
  modifyClass m aslResult (shiftFlags 7) s

/-- ASL A (R180): bit 7 goes to C. -/
def aslAccumulator (s : State) : Result :=
  accumulatorClass aslResult (shiftFlags 7) s

/-- `ASL $nn` (06): R180, mode R100. -/
def execAslZp (b : Byte) (s : State) : Result := aslMemory (.zeroPage b) s

/-- `ASL $nn,X` (16): R180, mode R102. -/
def execAslZpx (b : Byte) (s : State) : Result := aslMemory (.zeroPageX b) s

/-- `ASL $hhll` (0E): R180, mode R101. -/
def execAslAbs (a : Addr) (s : State) : Result := aslMemory (.absolute a) s

/-- `ASL $hhll,X` (1E): R180, mode R104. -/
def execAslAbsx (a : Addr) (s : State) : Result := aslMemory (.absoluteX a) s

/-- `ASL A` (0A): R180, mode R98. -/
def execAslAcc (s : State) : Result := aslAccumulator s

/-- LSR on memory (R181): bit 0 goes to C. -/
def lsrMemory (m : MemOperand) (s : State) : Result :=
  modifyClass m lsrResult (shiftFlags 0) s

/-- LSR A (R181): bit 0 goes to C. -/
def lsrAccumulator (s : State) : Result :=
  accumulatorClass lsrResult (shiftFlags 0) s

/-- `LSR $nn` (46): R181, mode R100. -/
def execLsrZp (b : Byte) (s : State) : Result := lsrMemory (.zeroPage b) s

/-- `LSR $nn,X` (56): R181, mode R102. -/
def execLsrZpx (b : Byte) (s : State) : Result := lsrMemory (.zeroPageX b) s

/-- `LSR $hhll` (4E): R181, mode R101. -/
def execLsrAbs (a : Addr) (s : State) : Result := lsrMemory (.absolute a) s

/-- `LSR $hhll,X` (5E): R181, mode R104. -/
def execLsrAbsx (a : Addr) (s : State) : Result := lsrMemory (.absoluteX a) s

/-- `LSR A` (4A): R181, mode R98. -/
def execLsrAcc (s : State) : Result := lsrAccumulator s

/-- ROL on memory (R182): bit 7 goes to C, the old C enters bit 0. -/
def rolMemory (m : MemOperand) (s : State) : Result :=
  modifyClass m (rolResult (s.flag .c)) (shiftFlags 7) s

/-- ROL A (R182): bit 7 goes to C, the old C enters bit 0. -/
def rolAccumulator (s : State) : Result :=
  accumulatorClass (rolResult (s.flag .c)) (shiftFlags 7) s

/-- `ROL $nn` (26): R182, mode R100. -/
def execRolZp (b : Byte) (s : State) : Result := rolMemory (.zeroPage b) s

/-- `ROL $nn,X` (36): R182, mode R102. -/
def execRolZpx (b : Byte) (s : State) : Result := rolMemory (.zeroPageX b) s

/-- `ROL $hhll` (2E): R182, mode R101. -/
def execRolAbs (a : Addr) (s : State) : Result := rolMemory (.absolute a) s

/-- `ROL $hhll,X` (3E): R182, mode R104. -/
def execRolAbsx (a : Addr) (s : State) : Result := rolMemory (.absoluteX a) s

/-- `ROL A` (2A): R182, mode R98. -/
def execRolAcc (s : State) : Result := rolAccumulator s

/-- ROR on memory (R183): bit 0 goes to C, the old C enters bit 7. -/
def rorMemory (m : MemOperand) (s : State) : Result :=
  modifyClass m (rorResult (s.flag .c)) (shiftFlags 0) s

/-- ROR A (R183): bit 0 goes to C, the old C enters bit 7. -/
def rorAccumulator (s : State) : Result :=
  accumulatorClass (rorResult (s.flag .c)) (shiftFlags 0) s

/-- `ROR $nn` (66): R183, mode R100. -/
def execRorZp (b : Byte) (s : State) : Result := rorMemory (.zeroPage b) s

/-- `ROR $nn,X` (76): R183, mode R102. -/
def execRorZpx (b : Byte) (s : State) : Result := rorMemory (.zeroPageX b) s

/-- `ROR $hhll` (6E): R183, mode R101. -/
def execRorAbs (a : Addr) (s : State) : Result := rorMemory (.absolute a) s

/-- `ROR $hhll,X` (7E): R183, mode R104. -/
def execRorAbsx (a : Addr) (s : State) : Result := rorMemory (.absoluteX a) s

/-- `ROR A` (6A): R183, mode R98. -/
def execRorAcc (s : State) : Result := rorAccumulator s

end Sys2Proof.Machine
end

