-- ==== Sys2Proof/Machine/Stack.lean ====
section
/-! DEFINITION. Subroutine linkage, push and pull, software interrupt (48_stack_subroutine_interrupt.md R228 to R235). One definition per row of
the opcode table; a row in several modes is one line over its mnemonic's shared operation. -/

namespace Sys2Proof.Machine

/-- `JSR $hhll` (20, R228): the post-fetch PC minus 1 is pushed, high byte first, then `PC <- ea`; ea is resolved before the pushes. -/
def execJsr (a : Addr) (s : State) : Result :=
  targetClass (.absolute a) (fun ea t => (t.pushWord (t.pc - 1)).setPc ea) s

/-- `RTS` (60, R229): low then high byte pulled, plus 1. -/
def execRts (s : State) : Result :=
  impliedClass (fun t => t.pull.pull.setPc (t.pulledWord + 1)) s

/-- `PHA` (48, R230): `Push(A)`. -/
def execPha (s : State) : Result :=
  impliedClass (fun t => t.push t.a) s

/-- `PHP` (08, R231): `Push(P | 0x10)`; P unchanged. -/
def execPhp (s : State) : Result :=
  impliedClass (fun t => t.push (pushedStatus t.p)) s

/-- `PLA` (68, R232): `A <- Pull(); SetZN(A)`. -/
def execPla (s : State) : Result :=
  impliedClass (fun t => (t.pull.setA t.pulledByte).putZN t.pulledByte) s

/-- `PLP` (28, R233): `P <- Pull() | 0x20`. -/
def execPlp (s : State) : Result :=
  impliedClass (fun t => t.pull.setP (pulledStatus t.pulledByte)) s

/-- `BRK` (00, R234): the interrupt is taken with return address post-fetch PC plus 1, that is pc0 + 2 (D4). -/
def execBrk (s : State) : Result :=
  impliedClass (fun t => t.takeInterrupt (t.pc + 1)) s

/-- `RTI` (40, R235): P and PC are pulled. -/
def execRti (s : State) : Result :=
  impliedClass State.returnFromInterrupt s

end Sys2Proof.Machine
end

