-- ==== Sys2Proof/Machine/Transfer.lean ====
section
/-! DEFINITION. Transfers, flag operations and NOP (49_transfer_flag_nop_unofficial.md R245 to R258). One definition per row of
the opcode table; a row in several modes is one line over its mnemonic's shared operation. -/

namespace Sys2Proof.Machine

/-- `TAX` (AA, R245): `X <- A; SetZN(X)`. -/
def execTax (s : State) : Result :=
  impliedClass (fun t => (t.setX t.a).putZN t.a) s

/-- `TAY` (A8, R246): `Y <- A; SetZN(Y)`. -/
def execTay (s : State) : Result :=
  impliedClass (fun t => (t.setY t.a).putZN t.a) s

/-- `TSX` (BA, R247): `X <- SP; SetZN(X)`. -/
def execTsx (s : State) : Result :=
  impliedClass (fun t => (t.setX t.sp).putZN t.sp) s

/-- `TXA` (8A, R248): `A <- X; SetZN(A)`. -/
def execTxa (s : State) : Result :=
  impliedClass (fun t => (t.setA t.x).putZN t.x) s

/-- `TXS` (9A, R249): `SP <- X`; no flag. -/
def execTxs (s : State) : Result :=
  impliedClass (fun t => t.setSp t.x) s

/-- `TYA` (98, R250): `A <- Y; SetZN(A)`. -/
def execTya (s : State) : Result :=
  impliedClass (fun t => (t.setA t.y).putZN t.y) s

/-- `CLC` (18, R251): `P.C <- 0`. -/
def execClc (s : State) : Result :=
  impliedClass (fun t => t.putFlag .c false) s

/-- `SEC` (38, R252): `P.C <- 1`. -/
def execSec (s : State) : Result :=
  impliedClass (fun t => t.putFlag .c true) s

/-- `CLI` (58, R253): `P.I <- 0`. -/
def execCli (s : State) : Result :=
  impliedClass (fun t => t.putFlag .i false) s

/-- `SEI` (78, R254): `P.I <- 1`. -/
def execSei (s : State) : Result :=
  impliedClass (fun t => t.putFlag .i true) s

/-- `CLV` (B8, R255): `P.V <- 0`. -/
def execClv (s : State) : Result :=
  impliedClass (fun t => t.putFlag .v false) s

/-- `CLD` (D8, R256): `P.D <- 0`. -/
def execCld (s : State) : Result :=
  impliedClass (fun t => t.putFlag .d false) s

/-- `SED` (F8, R257): `P.D <- 1`. -/
def execSed (s : State) : Result :=
  impliedClass (fun t => t.putFlag .d true) s

/-- `NOP` (EA, R258): nothing besides the default PC advance. -/
def execNop (s : State) : Result :=
  impliedClass (fun t => t) s

end Sys2Proof.Machine
end

