-- ==== Sys2Proof/Machine/Unofficial.lean ====
section
/-! DEFINITION. The admitted unofficial instructions (49_transfer_flag_nop_unofficial.md R260 to R264). One definition per row of
the opcode table; a row in several modes is one line over its mnemonic's shared operation. -/

namespace Sys2Proof.Machine

/-- LAX (R261): `A <- M; X <- M; SetZN(M)`. -/
def loadAX (m : MemOperand) (s : State) : Result :=
  readClass m (fun v t => ((t.setA v).setX v).putZN v) s

/-- `LAX $nn` (A7): R261, mode R100. -/
def execLaxZp (b : Byte) (s : State) : Result := loadAX (.zeroPage b) s

/-- `LAX $nn,Y` (B7): R261, mode R103. -/
def execLaxZpy (b : Byte) (s : State) : Result := loadAX (.zeroPageY b) s

/-- `LAX $hhll` (AF): R261, mode R101. -/
def execLaxAbs (a : Addr) (s : State) : Result := loadAX (.absolute a) s

/-- `LAX $hhll,Y` (BF): R261, mode R105. -/
def execLaxAbsy (a : Addr) (s : State) : Result := loadAX (.absoluteY a) s

/-- `LAX ($nn,X)` (A3): R261, mode R107. -/
def execLaxIzx (b : Byte) (s : State) : Result := loadAX (.indexedIndirect b) s

/-- `LAX ($nn),Y` (B3): R261, mode R108. -/
def execLaxIzy (b : Byte) (s : State) : Result := loadAX (.indirectIndexed b) s

/-- SAX (R262): `MemWrite(ea, 1, A & X)`; no flag. -/
def storeAX (m : MemOperand) (s : State) : Result :=
  storeClass m (s.a &&& s.x) s

/-- `SAX $nn` (87): R262, mode R100. -/
def execSaxZp (b : Byte) (s : State) : Result := storeAX (.zeroPage b) s

/-- `SAX $nn,Y` (97): R262, mode R103. -/
def execSaxZpy (b : Byte) (s : State) : Result := storeAX (.zeroPageY b) s

/-- `SAX $hhll` (8F): R262, mode R101. -/
def execSaxAbs (a : Addr) (s : State) : Result := storeAX (.absolute a) s

/-- `SAX ($nn,X)` (83): R262, mode R107. -/
def execSaxIzx (b : Byte) (s : State) : Result := storeAX (.indexedIndirect b) s

/-- DCP (R263): the byte at ea minus 1, written back, then compared with A. -/
def decCompare (m : MemOperand) (s : State) : Result :=
  modifyClass m (fun v => v - 1) (fun _ r t => t.compare t.a r) s

/-- `DCP $nn` (C7): R263, mode R100. -/
def execDcpZp (b : Byte) (s : State) : Result := decCompare (.zeroPage b) s

/-- `DCP $nn,X` (D7): R263, mode R102. -/
def execDcpZpx (b : Byte) (s : State) : Result := decCompare (.zeroPageX b) s

/-- `DCP $hhll` (CF): R263, mode R101. -/
def execDcpAbs (a : Addr) (s : State) : Result := decCompare (.absolute a) s

/-- `DCP $hhll,X` (DF): R263, mode R104. -/
def execDcpAbsx (a : Addr) (s : State) : Result := decCompare (.absoluteX a) s

/-- `DCP $hhll,Y` (DB): R263, mode R105. -/
def execDcpAbsy (a : Addr) (s : State) : Result := decCompare (.absoluteY a) s

/-- `DCP ($nn,X)` (C3): R263, mode R107. -/
def execDcpIzx (b : Byte) (s : State) : Result := decCompare (.indexedIndirect b) s

/-- `DCP ($nn),Y` (D3): R263, mode R108. -/
def execDcpIzy (b : Byte) (s : State) : Result := decCompare (.indirectIndexed b) s

/-- ISC (R264): the byte at ea plus 1, written back, then subtracted from A as SBC does. -/
def incSubtract (m : MemOperand) (s : State) : Result :=
  modifyClass m (fun v => v + 1) (fun _ r t => State.addWithCarry (~~~r) t) s

/-- `ISC $nn` (E7): R264, mode R100. -/
def execIscZp (b : Byte) (s : State) : Result := incSubtract (.zeroPage b) s

/-- `ISC $nn,X` (F7): R264, mode R102. -/
def execIscZpx (b : Byte) (s : State) : Result := incSubtract (.zeroPageX b) s

/-- `ISC $hhll` (EF): R264, mode R101. -/
def execIscAbs (a : Addr) (s : State) : Result := incSubtract (.absolute a) s

/-- `ISC $hhll,X` (FF): R264, mode R104. -/
def execIscAbsx (a : Addr) (s : State) : Result := incSubtract (.absoluteX a) s

/-- `ISC $hhll,Y` (FB): R264, mode R105. -/
def execIscAbsy (a : Addr) (s : State) : Result := incSubtract (.absoluteY a) s

/-- `ISC ($nn,X)` (E3): R264, mode R107. -/
def execIscIzx (b : Byte) (s : State) : Result := incSubtract (.indexedIndirect b) s

/-- `ISC ($nn),Y` (F3): R264, mode R108. -/
def execIscIzy (b : Byte) (s : State) : Result := incSubtract (.indirectIndexed b) s

end Sys2Proof.Machine
end

