-- ==== Sys2Proof/Machine/Step.lean ====
section
/-! DEFINITION. The step (40_execution_cycle.md R130 to R133): fetch and decode at PC, then the instruction's effect. -/

namespace Sys2Proof.Machine

/-- One call of `step(bus)` (R131). A byte with no descriptor ends it with IllegalOpcode, the state untouched (R132, R270); any
other instruction runs. Its cycle count is `stepResult` (R135; log 6). -/
def step (s : State) : Host.Outcome State Fault Refusal :=
  match s.fetch with
  | none => .fault (.illegalOpcode (s.readByte s.pc))
  | some i => exec i s

/-- `s` with an instruction of the opcode table's numbering stored at PC: its first `nbits` bits from `w`, the rest of the longest
instruction (three bytes) zero, the first byte at PC. (log 11) -/
def State.withFetchWord (s : State) (nbits w : Nat) : State :=
  s.setMem (s.mem.writeBytes s.pc
    [BitVec.ofNat 8 (w % 2 ^ nbits), BitVec.ofNat 8 (w % 2 ^ nbits / 256), BitVec.ofNat 8 (w % 2 ^ nbits / 65536)])

end Sys2Proof.Machine
end

