-- ==== Sys2Proof/Machine/Bus.lean ====
section
/-! DEFINITION. The bus accesses of one step, in order (20_memory.md R69, D14; 40_execution_cycle.md R138, R141). The list is
computed from the state the step starts in; it is not state (R45), and nothing in `step` reads it. -/

namespace Sys2Proof

/-- The instruction classes of R138. -/
inductive AccessClass where
  | read | store | readModifyWrite | register | stack | control
deriving DecidableEq, Repr

/-- The class of a mnemonic (R138); ASL, LSR, ROL and ROR are here in their memory modes. -/
def Mnemonic.memoryClass : Mnemonic → AccessClass
  | .lda | .ldx | .ldy | .adc | .sbc | .and | .ora | .eor | .bit | .cmp | .cpx | .cpy | .lax => .read
  | .sta | .stx | .sty | .sax => .store
  | .asl | .lsr | .rol | .ror | .inc | .dec | .dcp | .isc => .readModifyWrite
  | .inx | .dex | .iny | .dey | .tax | .tay | .tsx | .txa | .txs | .tya | .clc | .sec | .cli | .sei | .clv | .cld
  | .sed | .nop => .register
  | .pha | .php | .pla | .plp => .stack
  | .bcc | .bcs | .beq | .bmi | .bne | .bpl | .bvc | .bvs | .jmp | .jsr | .rts | .brk | .rti => .control

/-- The class of an instruction (R138): a shift or rotate in Accumulator mode is of register class. -/
def Instr.accessClass (i : Instr) : AccessClass :=
  if i.operand = .accumulator then .register else i.mnemonic.memoryClass

end Sys2Proof

namespace Sys2Proof.Machine

/-- One access of the bus port (R61, R141), with the byte read or written. -/
inductive BusAccess where
  | read (a : Addr) (v : Byte) | write (a : Addr) (v : Byte)
deriving DecidableEq, Repr

/-- A read of the byte memory holds. -/
def State.seen (s : State) (a : Addr) : BusAccess := .read a (s.readByte a)

/-- The resolver's reads of a mode (R69 item 2, R96): the operand bytes in address order, then a pointer's bytes, low then high.
For Immediate the resolver reads nothing (R99). -/
def resolverReads (o : Operand) (s : State) : List BusAccess :=
  match o with
  | .implied | .accumulator | .mem (.immediate _) => []
  | .mem (.zeroPage _) | .mem (.zeroPageX _) | .mem (.zeroPageY _) | .mem (.relative _) => [s.seen (s.pc + 1)]
  | .mem (.absolute _) | .mem (.absoluteX _) | .mem (.absoluteY _) => [s.seen (s.pc + 1), s.seen (s.pc + 2)]
  | .mem (.indirect a) => [s.seen (s.pc + 1), s.seen (s.pc + 2), s.seen a, s.seen (samePageNext a)]
  | .mem (.indexedIndirect b) =>
    [s.seen (s.pc + 1), s.seen (zextAddr (b + s.x)), s.seen (zextAddr (b + s.x + 1))]
  | .mem (.indirectIndexed b) => [s.seen (s.pc + 1), s.seen (zextAddr b), s.seen (zextAddr (b + 1))]

/-- The accesses of an instruction with a memory operand: a read at ea for the read class, a write for the store class, both for the
read-modify-write class (R69 item 3). `stored` is the byte written. -/
def operandAccesses (m : MemOperand) (c : AccessClass) (stored : Byte) (s : State) : List BusAccess :=
  match c with
  | .read => [s.seen (effAddr m s)]
  | .store => [.write (effAddr m s) stored]
  | .readModifyWrite => [s.seen (effAddr m s), .write (effAddr m s) stored]
  | .register | .stack | .control => []

/-- What the store and read-modify-write classes write, given the byte `v` at ea; the other mnemonics write no operand. -/
def storedByte (mn : Mnemonic) (v : Byte) (s : State) : Byte :=
  match mn with
  | .sta => s.a | .stx => s.x | .sty => s.y | .sax => s.a &&& s.x
  | .asl => aslResult v | .lsr => lsrResult v | .rol => rolResult (s.flag .c) v | .ror => rorResult (s.flag .c) v
  | .inc | .isc => v + 1
  | .dec | .dcp => v - 1
  | .lda | .ldx | .ldy | .adc | .sbc | .and | .ora | .eor | .bit | .cmp | .cpx | .cpy | .inx | .dex | .iny | .dey
  | .bcc | .bcs | .beq | .bmi | .bne | .bpl | .bvc | .bvs | .jmp | .jsr | .rts | .pha | .php | .pla | .plp | .brk
  | .rti | .tax | .tay | .tsx | .txa | .txs | .tya | .clc | .sec | .cli | .sei | .clv | .cld | .sed | .nop | .lax => v

/-- The three frame writes of BRK, then its vector reads (R234, D14). -/
def breakAccesses (s : State) : List BusAccess :=
  [.write (stackAddr s.sp) (hiByte (s.pc + 2)), .write (stackAddr (s.sp - 1)) (loByte (s.pc + 2)),
   .write (stackAddr (s.sp - 2)) (pushedStatus s.p), s.seen 0xFFFE, s.seen 0xFFFF]

/-- The handler's accesses (R69 item 3). -/
def handlerAccesses (i : Instr) (s : State) : List BusAccess :=
  match i.operand with
  | .accumulator => []
  | .mem m =>
    if i.mnemonic = .jsr then
      [.write (stackAddr s.sp) (hiByte (s.pc + 2)), .write (stackAddr (s.sp - 1)) (loByte (s.pc + 2))]
    else operandAccesses m i.accessClass (storedByte i.mnemonic (s.readByte (effAddr m s)) s) s
  | .implied =>
    match i.mnemonic with
    | .pha => [.write (stackAddr s.sp) s.a]
    | .php => [.write (stackAddr s.sp) (pushedStatus s.p)]
    | .pla | .plp => [s.seen (stackAddr (s.sp + 1))]
    | .rts => [s.seen (stackAddr (s.sp + 1)), s.seen (stackAddr (s.sp + 2))]
    | .rti => [s.seen (stackAddr (s.sp + 1)), s.seen (stackAddr (s.sp + 2)), s.seen (stackAddr (s.sp + 3))]
    | .brk => breakAccesses s
    | .lda | .ldx | .ldy | .sta | .stx | .sty | .adc | .sbc | .and | .ora | .eor | .bit | .asl | .lsr | .rol | .ror
    | .cmp | .cpx | .cpy | .inc | .dec | .inx | .dex | .iny | .dey | .bcc | .bcs | .beq | .bmi | .bne | .bpl | .bvc
    | .bvs | .jmp | .jsr | .tax | .tay | .tsx | .txa | .txs | .tya | .clc | .sec | .cli | .sei | .clv | .cld | .sed
    | .nop | .lax | .sax | .dcp | .isc => []

/-- All the accesses of the step from `s`: the opcode read, the resolver's, the handler's (R69). An illegal byte makes the opcode
read alone (R270). -/
def busAccesses (s : State) : List BusAccess :=
  s.seen s.pc ::
    match s.fetch with
    | none => []
    | some i => resolverReads i.operand s ++ handlerAccesses i s

/-- The accesses of the reset command: two reads, low byte first, no write (R300, D14). -/
def resetAccesses (s : State) : List BusAccess := [s.seen 0xFFFC, s.seen 0xFFFD]

/-- A memory that answers a list of accesses: each read must get the byte the memory then holds, each write is made. `none` where
a read got another byte. -/
def replay : List BusAccess → Memory → Option Memory
  | [], m => some m
  | .read a v :: rest, m => if m.read a = v then replay rest m else none
  | .write a v :: rest, m => replay rest (m.write a v)

end Sys2Proof.Machine
end

