-- ==== Sys2Proof/Machine/HostPort.lean ====
section
/-! DEFINITION. The host's side of the core (40_execution_cycle.md R140 to R143): what a step returns, the commands the host may give
between steps, and the read-only accessors. `Sys2Proof.core` runs `step` alone; these say what the other commands do. (log 12) -/

namespace Sys2Proof.Machine

/-- What a call of `step(bus)` returns (R135, R141): the base cycle count, or the error with its byte. -/
inductive StepResult where
  | ok (cycles : Nat) | illegalOpcode (op : Byte)
deriving DecidableEq, Repr

/-- The result of the step from `s` (R135): the table's cycle count whatever the instruction did, or IllegalOpcode (R132). (log 6) -/
def stepResult (s : State) : StepResult :=
  match s.fetch with
  | none => .illegalOpcode (s.readByte s.pc)
  | some i => .ok i.baseCycles

/-- The state the host sees after a call of `step`: an error leaves it as it was (R132, R142). -/
def State.afterStep (s : State) : State :=
  match step s with
  | .next t => t
  | .fault _ => s
  | .refused _ => s

/-- What the host may do between two steps (R143). -/
inductive Command where
  /-- A fresh register state with power-on defaults, over the same bus (R50, R140). -/
  | construct
  /-- `reset(bus)` (R300), at any time between commands (R302). -/
  | reset
  /-- `step(bus)` (R131). -/
  | step
  /-- A byte of memory written between steps (R82). -/
  | poke (a : Addr) (v : Byte)
  /-- A launch register state chosen (LAUNCH_REGS, D10); the memory is the bus's and stays. -/
  | launch (a x y sp p : Byte) (pc : Addr)
deriving DecidableEq, Repr

/-- The state after a command. -/
def Command.run (c : Command) (s : State) : State :=
  match c with
  | .construct => State.powerOn s.mem
  | .reset => s.resetCommand
  | .step => s.afterStep
  | .poke a v => s.writeByte a v
  | .launch a x y sp p pc => { a := a, x := x, y := y, sp := sp, p := p, pc := pc, mem := s.mem }

/-- What a command returns: only `step` returns anything (R140, R300). -/
def Command.reply (c : Command) (s : State) : Option StepResult :=
  match c with
  | .construct | .reset | .poke _ _ | .launch _ _ _ _ _ _ => none
  | .step => some (stepResult s)

/-- A sequence of commands. -/
def runCommands : List Command → State → State
  | [], s => s
  | c :: rest, s => runCommands rest (c.run s)

/-- The read-only observation port (R140, R141): the six registers and the seven flags. -/
inductive Accessor where
  | a | x | y | sp | p | pc | flag (f : Flag)
deriving DecidableEq, Repr

/-- The value an accessor shows, as a number; reading changes nothing. -/
def Accessor.value (r : Accessor) (s : State) : Nat :=
  match r with
  | .a => s.a.toNat
  | .x => s.x.toNat
  | .y => s.y.toNat
  | .sp => s.sp.toNat
  | .p => s.p.toNat
  | .pc => s.pc.toNat
  | .flag f => (s.flag f).toNat

/-- A byte of memory read by the host between steps (R82). -/
def hostRead (s : State) (a : Addr) : Byte := s.readByte a

end Sys2Proof.Machine
end

