-- ==== Sys2Proof/Safety.lean ====
section
/-! DEFINITION. The words the statements use: the invariant of the core, runs, what an instruction is encoded as and runs to, and which
instructions write which register, flag and byte (the tables of 10_state.md R31 to R37 and 40_execution_cycle.md R134, R138). -/

namespace Sys2Proof.Machine

/-! ## The invariant and runs -/

/-- P bit 5 holds 1 (10_state.md R38, R51). -/
abbrev State.Bit5Set (s : State) : Prop := s.p[5] = true

/-- The invariant: bit 5 of P holds 1 (R38), and the memory list is in its canonical form (log 1, log 9). -/
abbrev State.Inv (s : State) : Prop := s.Bit5Set ∧ s.mem.wf = true

/-- A run that no error ends: `n` steps from `s` end in `t` (R144). -/
inductive Reaches : Nat → State → State → Prop
  | refl (s : State) : Reaches 0 s s
  | step {n : Nat} {s t u : State} (h : Sys2Proof.Machine.step s = .next t) (rest : Reaches n t u) : Reaches (n + 1) s u

/-- A function applied to the next state of an outcome; a stop stays the stop it is. -/
def onNext (f : State → State) : Result → Result
  | .next t => .next (f t)
  | .fault r => .fault r
  | .refused r => .refused r

/-! ## What an instruction is encoded as and runs to -/

/-- Every byte of memory but those at the listed addresses is as before. -/
abbrev SameBytesExcept (m m' : Memory) (changed : List Addr) : Prop := ∀ a : Addr, a ∉ changed → m'.read a = m.read a

/-- `q` is the status byte `p` with at most the listed flags changed; bit 5 is kept. -/
abbrev FlagsKeptExcept (p q : Byte) (written : List Flag) : Prop :=
  q[5] = p[5] ∧ ∀ f : Flag, f ∉ written → getFlag q f = getFlag p f

/-- Z and N of `q` are those of the byte `r` (R42). -/
abbrev ZNOf (q r : Byte) : Prop := (getFlag q .z = true ↔ r = 0) ∧ (getFlag q .n = true ↔ 128 ≤ r.toNat)

/-- `i` is the opcode byte `op` with the operand bytes of mode `m` (R91), and from every state runs to a next state that `post` relates to
the memory operand M and the state before. -/
def ReadsTo (i : Instr) (op : Byte) (m : MemOperand) (post : Byte → State → State → Prop) : Prop :=
  encode i = op :: m.bytes ∧ ∀ s : State, ∃ t : State, exec i s = .next t ∧ post (operandValue m s) s t

/-- `i` is the opcode byte `op` with the operand bytes of mode `m`, and from every state runs to the state `after M s` with PC advanced
past its bytes (R133). -/
def ReadsAs (i : Instr) (op : Byte) (m : MemOperand) (after : Byte → State → State) : Prop :=
  encode i = op :: m.bytes ∧ ∀ s : State, exec i s = .next ((after (operandValue m s) s).advance m.count)

/-- `i` is the opcode byte `op` with the operand bytes of mode `m`, and from every state runs to a next state in which the byte at the
effective address is `stored M s`, every other byte of memory is as before, PC is advanced past its bytes, and A, X, Y, SP and P
are those of a state that `post` relates to M, the stored byte and the state before. -/
def StoresTo (i : Instr) (op : Byte) (m : MemOperand) (stored : Byte → State → Byte)
    (post : Byte → Byte → State → State → Prop) : Prop :=
  encode i = op :: m.bytes ∧ ∀ s : State, ∃ t : State, exec i s = .next t ∧
    t.readByte (effAddr m s) = stored (operandValue m s) s ∧ SameBytesExcept s.mem t.mem [effAddr m s] ∧
    t.pc = s.pc + 1 + BitVec.ofNat 16 m.count ∧ post (operandValue m s) (stored (operandValue m s) s) s t

/-- A, X, Y and SP are as before. -/
abbrev SameRegisters (s t : State) : Prop := t.a = s.a ∧ t.x = s.x ∧ t.y = s.y ∧ t.sp = s.sp

/-- `i` is the one byte `op`, and from every state runs to the state `after s` with PC advanced by one (R133). -/
def ImpliedAs (i : Instr) (op : Byte) (after : State → State) : Prop :=
  encode i = [op] ∧ ∀ s : State, exec i s = .next ((after s).advance 0)

/-! ## Who writes what -/

/-- The mnemonics that apply SetZN or write Z and N otherwise (R37, R42). -/
def znWriters : List Mnemonic :=
  [.lda, .ldx, .ldy, .adc, .sbc, .and, .ora, .eor, .bit, .asl, .lsr, .rol, .ror, .cmp, .cpx, .cpy, .inc, .dec, .inx, .dex,
   .iny, .dey, .pla, .plp, .rti, .tax, .tay, .tsx, .txa, .tya, .lax, .dcp, .isc]

/-- The "written by" column of R37. -/
def flagWriters : Flag → List Mnemonic
  | .c => [.adc, .sbc, .asl, .lsr, .rol, .ror, .cmp, .cpx, .cpy, .clc, .sec, .plp, .rti, .dcp, .isc]
  | .z => znWriters
  | .i => [.sei, .cli, .brk, .plp, .rti]
  | .d => [.sed, .cld, .plp, .rti]
  | .b => [.plp, .rti]
  | .v => [.adc, .sbc, .bit, .clv, .plp, .rti, .isc]
  | .n => znWriters

/-- The writers of A (R31); ASL, LSR, ROL and ROR only in Accumulator mode. -/
def aWriters : List Mnemonic := [.lda, .pla, .txa, .tya, .adc, .sbc, .and, .ora, .eor, .lax, .isc]

/-- The writers of X (R32). -/
def xWriters : List Mnemonic := [.ldx, .tax, .tsx, .inx, .dex, .lax]

/-- The writers of Y (R33). -/
def yWriters : List Mnemonic := [.ldy, .tay, .iny, .dey]

/-- The writers of SP (R34). -/
def spWriters : List Mnemonic := [.txs, .jsr, .rts, .pha, .php, .pla, .plp, .brk, .rti]

/-- The handlers that write PC (R134). -/
def pcWriters : List Mnemonic := [.bcc, .bcs, .beq, .bmi, .bne, .bpl, .bvc, .bvs, .jmp, .jsr, .rts, .brk, .rti]

/-- The addresses an instruction stores to, with the functions its meaning uses (R138): the effective address for the store and
read-modify-write classes, the stack bytes of a push. -/
def storedAddresses (i : Instr) (s : State) : List Addr :=
  match i.operand with
  | .accumulator => []
  | .mem m =>
    if i.mnemonic = .jsr then [stackAddr s.sp, stackAddr (s.sp - 1)]
    else if i.accessClass = .store ∨ i.accessClass = .readModifyWrite then [effAddr m s] else []
  | .implied =>
    if i.mnemonic = .pha ∨ i.mnemonic = .php then [stackAddr s.sp]
    else if i.mnemonic = .brk then [stackAddr s.sp, stackAddr (s.sp - 1), stackAddr (s.sp - 2)] else []

end Sys2Proof.Machine
end

