-- ==== Sys2Proof/Certificates/Slice0/Obligations.lean ====
section
/-! DEFINITION. The statements for the provers. Each cites the rules of spec/ it formalises; a statement that an instruction "runs to" a
state says that `exec` answers it as the next state from every state, with no condition. -/

open Sys2Proof Sys2Proof.Machine

/-- The example bytes of R120, one per addressing mode, decode to the instruction beside them: AA TAX, 0A ASL A, A9 42, 85 10, B5 10, B6 10, 4C 34 12, BD 34 12, B9 34 12, 6C FF 02, A1 20, B1 20, D0 FC. -/
def Obligations.DecodesSpecWords : Prop :=
  decode [0xAA] = .ok (.tax, []) ∧ decode [0x0A] = .ok (.aslAcc, []) ∧ decode [0xA9, 0x42] = .ok (.ldaImm 0x42, []) ∧
  decode [0x85, 0x10] = .ok (.staZp 0x10, []) ∧ decode [0xB5, 0x10] = .ok (.ldaZpx 0x10, []) ∧
  decode [0xB6, 0x10] = .ok (.ldxZpy 0x10, []) ∧ decode [0x4C, 0x34, 0x12] = .ok (.jmpAbs 0x1234, []) ∧
  decode [0xBD, 0x34, 0x12] = .ok (.ldaAbsx 0x1234, []) ∧ decode [0xB9, 0x34, 0x12] = .ok (.ldaAbsy 0x1234, []) ∧
  decode [0x6C, 0xFF, 0x02] = .ok (.jmpInd 0x02FF, []) ∧ decode [0xA1, 0x20] = .ok (.ldaIzx 0x20, []) ∧
  decode [0xB1, 0x20] = .ok (.ldaIzy 0x20, []) ∧ decode [0xD0, 0xFC] = .ok (.bne 0xFC, [])

/-- For every well-formed instruction of the table, with every operand, and any bytes after it: decoding its encoding followed by those bytes answers that instruction and those bytes. -/
def Obligations.DecodeInvertsEncode : Prop :=
  ∀ (i : Instr) (rest : List Byte), i.WellFormed → decode (encode i ++ rest) = .ok (i, rest)

/-- For both values of UNOFFICIAL_EXEC: an encoding followed by any two bytes decodes to its instruction where that is official or the parameter is true, and to nothing else. -/
def Obligations.DecodeFollowsUnofficialPolicy : Prop :=
  ∀ (unofficial : Bool) (i : Instr) (b1 b2 : Byte),
    decodeWith unofficial i.desc.opcode ((i.operand.bytes ++ [b1, b2]).getD 0 0) ((i.operand.bytes ++ [b1, b2]).getD 1 0) =
      if i.isUnofficial = true ∧ unofficial = false then none else some i

/-- Where decode answers an instruction and a rest, the byte string was that instruction's encoding followed by the rest, and the instruction is well-formed: no byte has two readings. -/
def Obligations.EncodeInvertsDecode : Prop :=
  ∀ (bytes rest : List Byte) (i : Instr), decode bytes = .ok (i, rest) → bytes = encode i ++ rest ∧ i.WellFormed

/-- The 81 bytes R117 lists are exactly those with no instruction when UNOFFICIAL_EXEC is true; with it false the 24 of R116 are illegal too; a step whose fetched byte is one of the 81 raises IllegalOpcode with that byte and changes no state. -/
def Obligations.IllegalBytesRaiseIllegalOpcode : Prop :=
  let illegal : List Byte := [0x02, 0x03, 0x04, 0x07, 0x0B, 0x0C, 0x0F, 0x12, 0x13, 0x14, 0x17, 0x1A, 0x1B, 0x1C, 0x1F, 0x22, 0x23, 0x27,
    0x2B, 0x2F, 0x32, 0x33, 0x34, 0x37, 0x3A, 0x3B, 0x3C, 0x3F, 0x42, 0x43, 0x44, 0x47, 0x4B, 0x4F, 0x52, 0x53,
    0x54, 0x57, 0x5A, 0x5B, 0x5C, 0x5F, 0x62, 0x63, 0x64, 0x67, 0x6B, 0x6F, 0x72, 0x73, 0x74, 0x77, 0x7A, 0x7B,
    0x7C, 0x7F, 0x80, 0x82, 0x89, 0x8B, 0x92, 0x93, 0x9B, 0x9C, 0x9E, 0x9F, 0xAB, 0xB2, 0xBB, 0xC2, 0xCB, 0xD2,
    0xD4, 0xDA, 0xDC, 0xE2, 0xEB, 0xF2, 0xF4, 0xFA, 0xFC]
  let unofficialBytes : List Byte := [0x83, 0x87, 0x8F, 0x97, 0xA3, 0xA7, 0xAF, 0xB3, 0xB7, 0xBF, 0xC3, 0xC7, 0xCF, 0xD3, 0xD7, 0xDB, 0xDF, 0xE3,
    0xE7, 0xEF, 0xF3, 0xF7, 0xFB, 0xFF]
  (∀ op b1 b2 : Byte, decodeWith true op b1 b2 = none ↔ op ∈ illegal) ∧
  (∀ op b1 b2 : Byte, decodeWith false op b1 b2 = none ↔ op ∈ illegal ++ unofficialBytes) ∧
  (∀ s : State, s.readByte s.pc ∈ illegal → step s = .fault (.illegalOpcode (s.readByte s.pc)) ∧ s.afterStep = s)

/-- If the three bytes at PC, PC+1 and PC+2 (addresses wrapping) decode to i with some bytes left over, i is well-formed and the step is exec i at that same state. That exec starts with PC still on the opcode byte and makes the advance of R131 item 4 itself, so that the step adds nothing around it, is the model's choice (log 4). -/
def Obligations.StepRunsTheDecodedInstruction : Prop :=
  ∀ (s : State) (i : Instr) (rest : List Byte),
    decode [s.readByte s.pc, s.readByte (s.pc + 1), s.readByte (s.pc + 2)] = .ok (i, rest) → i.WellFormed ∧ step s = exec i s

/-- If the bytes from PC on (addresses wrapping modulo 65536) are the encoding of a well-formed instruction i, whatever wrote them there, the step is exec i, and its result is Ok of the base cycle count of i. -/
def Obligations.StoredEncodingRuns : Prop :=
  ∀ (s : State) (i : Instr), i.WellFormed →
    (∀ (k : Nat) (b : Byte), (encode i)[k]? = some b → s.readByte (s.pc + BitVec.ofNat 16 k) = b) →
    step s = exec i s ∧ stepResult s = .ok i.baseCycles

/-- Where the fetched byte has no descriptor, the step stops with IllegalOpcode of that byte, the host sees the state it stepped, the result carries the byte and no cycle count, the opcode read is the only bus access, and another step returns the same error. -/
def Obligations.IllegalOpcodeChangesNothing : Prop :=
  ∀ s : State, lookup (s.readByte s.pc) = none →
    step s = .fault (.illegalOpcode (s.readByte s.pc)) ∧ s.afterStep = s ∧
    stepResult s = .illegalOpcode (s.readByte s.pc) ∧ busAccesses s = [.read s.pc (s.readByte s.pc)] ∧
    stepResult s.afterStep = stepResult s

/-- C, Z, I, D, B, V, N are bits 0, 1, 2, 3, 4, 6, 7 of P; set_flag writes its one bit and keeps every other; SetZN(v) makes Z say v = 0 and N say v is 128 or more, and keeps C, V, I, D, B and bit 5. -/
def Obligations.FlagPrimitivesWriteTheirBits : Prop :=
  (∀ p : Byte, getFlag p .c = p[0] ∧ getFlag p .z = p[1] ∧ getFlag p .i = p[2] ∧ getFlag p .d = p[3] ∧ getFlag p .b = p[4] ∧
    getFlag p .v = p[6] ∧ getFlag p .n = p[7]) ∧
  (∀ (p : Byte) (f : Flag) (on : Bool), getFlag (setFlag p f on) f = on ∧ FlagsKeptExcept p (setFlag p f on) [f]) ∧
  (∀ p v : Byte, ZNOf (setZN p v) v ∧ FlagsKeptExcept p (setZN p v) [.z, .n])

/-- Implied and Accumulator resolve to NONE and 0 and read nothing; ZeroPageY is used only by LDX, STX, LAX and SAX; ZeroPage to the operand byte; ZeroPageX and ZeroPageY to operand plus index modulo 256; Absolute to the word; AbsoluteX and AbsoluteY to word plus index modulo 65536; the operand byte counts are 1 and 2. -/
def Obligations.DirectModesResolve : Prop :=
  ∀ s : State,
    resolve .implied s = (none, 0) ∧ resolve .accumulator s = (none, 0) ∧
    resolverReads .implied s = [] ∧ resolverReads .accumulator s = [] ∧
    (∀ (i : Instr) (b : Byte), i.operand = .mem (.zeroPageY b) → i.mnemonic ∈ [.ldx, .stx, .lax, .sax]) ∧
    (∀ b, ∃ ea : Addr, resolve (.mem (.zeroPage b)) s = (some ea, 1) ∧ ea.toNat = b.toNat) ∧
    (∀ b, ∃ ea : Addr, resolve (.mem (.zeroPageX b)) s = (some ea, 1) ∧ ea.toNat = (b.toNat + s.x.toNat) % 256) ∧
    (∀ b, ∃ ea : Addr, resolve (.mem (.zeroPageY b)) s = (some ea, 1) ∧ ea.toNat = (b.toNat + s.y.toNat) % 256) ∧
    (∀ a, ∃ ea : Addr, resolve (.mem (.absolute a)) s = (some ea, 2) ∧ ea = a ∧
      a.toNat = 256 * (hiByte a).toNat + (loByte a).toNat ∧ (MemOperand.absolute a).bytes = [loByte a, hiByte a]) ∧
    (∀ a, ∃ ea : Addr, resolve (.mem (.absoluteX a)) s = (some ea, 2) ∧ ea.toNat = (a.toNat + s.x.toNat) % 65536) ∧
    (∀ a, ∃ ea : Addr, resolve (.mem (.absoluteY a)) s = (some ea, 2) ∧ ea.toNat = (a.toNat + s.y.toNat) % 65536)

/-- Indirect resolves, with two operand bytes, to the word whose low byte is at the pointer and whose high byte is at the successor of the pointer within the pointer's own 256-byte page; only JMP (6C) has this mode. -/
def Obligations.IndirectPointerWrapsInItsPage : Prop :=
  (∀ (i : Instr) (ptr : Addr), i.operand = .mem (.indirect ptr) → i = .jmpInd ptr) ∧
  ∀ (s : State) (ptr : Addr), ∃ (ea hiAddr : Addr), resolve (.mem (.indirect ptr)) s = (some ea, 2) ∧
    hiAddr.toNat = 256 * (ptr.toNat / 256) + (ptr.toNat + 1) % 256 ∧
    ea.toNat = 256 * (s.readByte hiAddr).toNat + (s.readByte ptr).toNat

/-- IndexedIndirect takes its pointer at operand plus X modulo 256, IndirectIndexed at the operand; both read the high byte at the successor modulo 256; IndirectIndexed then adds Y modulo 65536; each has one operand byte. -/
def Obligations.ZeroPagePointersWrap : Prop :=
  ∀ (s : State) (b : Byte),
    (∃ (ea loAddr hiAddr : Addr), resolve (.mem (.indexedIndirect b)) s = (some ea, 1) ∧
      loAddr.toNat = (b.toNat + s.x.toNat) % 256 ∧ hiAddr.toNat = (loAddr.toNat + 1) % 256 ∧
      ea.toNat = 256 * (s.readByte hiAddr).toNat + (s.readByte loAddr).toNat) ∧
    (∃ (ea loAddr hiAddr : Addr), resolve (.mem (.indirectIndexed b)) s = (some ea, 1) ∧
      loAddr.toNat = b.toNat ∧ hiAddr.toNat = (b.toNat + 1) % 256 ∧
      ea.toNat = (256 * (s.readByte hiAddr).toNat + (s.readByte loAddr).toNat + s.y.toNat) % 65536)

/-- Relative resolves, with one operand byte, to pc0 + 2 plus the operand byte read as a signed number, modulo 65536; only the eight branches have this mode. -/
def Obligations.RelativeTargetIsSigned : Prop :=
  (∀ (i : Instr) (off : Byte), i.operand = .mem (.relative off) →
    i.mnemonic ∈ [.bcc, .bcs, .beq, .bmi, .bne, .bpl, .bvc, .bvs]) ∧
  ∀ (s : State) (off : Byte), ∃ ea : Addr, resolve (.mem (.relative off)) s = (some ea, 1) ∧
    (ea.toNat : Int) = ((s.pc.toNat : Int) + 2 + off.toInt) % 65536

/-- Immediate resolves to pc0 + 1 with one operand byte and no read; and where the step fetched an instruction with an immediate operand v, v is the byte memory holds there, so giving the handler v is giving it MemRead(ea, 1). That the instruction carries v, where the spec has the handler read it, is the model's choice (log 3). -/
def Obligations.ImmediateOperandIsTheFetchedByte : Prop :=
  (∀ (s : State) (v : Byte), resolve (.mem (.immediate v)) s = (some (s.pc + 1), 1) ∧ resolverReads (.mem (.immediate v)) s = []) ∧
  (∀ (s : State) (i : Instr) (v : Byte), s.fetch = some i → i.operand = .mem (.immediate v) →
    operandValue (.immediate v) s = s.readByte (effAddr (.immediate v) s))

/-- LDA (ldaImm, ldaZp, ldaZpx, ldaAbs, ldaAbsx, ldaAbsy, ldaIzx, ldaIzy) is encoded as R150 says and from every state runs to the state with A the memory operand, Z and N set by it, PC past the instruction, all else unchanged. -/
def Obligations.LdaLoadsAccumulator : Prop :=
  let after := fun (v : Byte) (s : State) => { s with a := v, p := setZN s.p v }
  (∀ v, ReadsAs (.ldaImm v) 0xA9 (.immediate v) after) ∧
  (∀ b, ReadsAs (.ldaZp b) 0xA5 (.zeroPage b) after) ∧
  (∀ b, ReadsAs (.ldaZpx b) 0xB5 (.zeroPageX b) after) ∧
  (∀ a, ReadsAs (.ldaAbs a) 0xAD (.absolute a) after) ∧
  (∀ a, ReadsAs (.ldaAbsx a) 0xBD (.absoluteX a) after) ∧
  (∀ a, ReadsAs (.ldaAbsy a) 0xB9 (.absoluteY a) after) ∧
  (∀ b, ReadsAs (.ldaIzx b) 0xA1 (.indexedIndirect b) after) ∧
  (∀ b, ReadsAs (.ldaIzy b) 0xB1 (.indirectIndexed b) after)

/-- LDX (ldxImm, ldxZp, ldxZpy, ldxAbs, ldxAbsy) and LDY (ldyImm, ldyZp, ldyZpx, ldyAbs, ldyAbsx) are encoded as R151 and R152 say and from every state run to the state with the register the memory operand, Z and N set by it, PC past the instruction, all else unchanged. -/
def Obligations.LdxLdyLoadIndexRegisters : Prop :=
  let afterX := fun (v : Byte) (s : State) => { s with x := v, p := setZN s.p v }
  let afterY := fun (v : Byte) (s : State) => { s with y := v, p := setZN s.p v }
  (∀ v, ReadsAs (.ldxImm v) 0xA2 (.immediate v) afterX) ∧
  (∀ b, ReadsAs (.ldxZp b) 0xA6 (.zeroPage b) afterX) ∧
  (∀ b, ReadsAs (.ldxZpy b) 0xB6 (.zeroPageY b) afterX) ∧
  (∀ a, ReadsAs (.ldxAbs a) 0xAE (.absolute a) afterX) ∧
  (∀ a, ReadsAs (.ldxAbsy a) 0xBE (.absoluteY a) afterX) ∧
  (∀ v, ReadsAs (.ldyImm v) 0xA0 (.immediate v) afterY) ∧
  (∀ b, ReadsAs (.ldyZp b) 0xA4 (.zeroPage b) afterY) ∧
  (∀ b, ReadsAs (.ldyZpx b) 0xB4 (.zeroPageX b) afterY) ∧
  (∀ a, ReadsAs (.ldyAbs a) 0xAC (.absolute a) afterY) ∧
  (∀ a, ReadsAs (.ldyAbsx a) 0xBC (.absoluteX a) afterY)

/-- STA (staZp, staZpx, staAbs, staAbsx, staAbsy, staIzx, staIzy), STX (stxZp, stxZpy, stxAbs), STY (styZp, styZpx, styAbs) are encoded as the rules say and from every state run to a next state where the byte at the effective address is the register, every other byte and every register and flag but PC is as before; the handler makes that one write and no read. -/
def Obligations.StoresWriteOneByte : Prop :=
  let kept := fun (_ _ : Byte) (s t : State) => SameRegisters s t ∧ t.p = s.p
  (∀ b, StoresTo (.staZp b) 0x85 (.zeroPage b) (fun _ s => s.a) kept) ∧
  (∀ b, StoresTo (.staZpx b) 0x95 (.zeroPageX b) (fun _ s => s.a) kept) ∧
  (∀ a, StoresTo (.staAbs a) 0x8D (.absolute a) (fun _ s => s.a) kept) ∧
  (∀ a, StoresTo (.staAbsx a) 0x9D (.absoluteX a) (fun _ s => s.a) kept) ∧
  (∀ a, StoresTo (.staAbsy a) 0x99 (.absoluteY a) (fun _ s => s.a) kept) ∧
  (∀ b, StoresTo (.staIzx b) 0x81 (.indexedIndirect b) (fun _ s => s.a) kept) ∧
  (∀ b, StoresTo (.staIzy b) 0x91 (.indirectIndexed b) (fun _ s => s.a) kept) ∧
  (∀ b, StoresTo (.stxZp b) 0x86 (.zeroPage b) (fun _ s => s.x) kept) ∧
  (∀ b, StoresTo (.stxZpy b) 0x96 (.zeroPageY b) (fun _ s => s.x) kept) ∧
  (∀ a, StoresTo (.stxAbs a) 0x8E (.absolute a) (fun _ s => s.x) kept) ∧
  (∀ b, StoresTo (.styZp b) 0x84 (.zeroPage b) (fun _ s => s.y) kept) ∧
  (∀ b, StoresTo (.styZpx b) 0x94 (.zeroPageX b) (fun _ s => s.y) kept) ∧
  (∀ a, StoresTo (.styAbs a) 0x8C (.absolute a) (fun _ s => s.y) kept) ∧
  (∀ (i : Instr) (m : MemOperand) (s : State), i.mnemonic ∈ [.sta, .stx, .sty] → i.operand = .mem m → ∃ v : Byte, handlerAccesses i s = [.write (effAddr m s) v])

/-- ADC (adcImm, adcZp, adcZpx, adcAbs, adcAbsx, adcAbsy, adcIzx, adcIzy) from every state runs to a next state where A is (A + M + C) modulo 256, C says the sum exceeds 255, V says the signed sum leaves -128..127, Z and N are those of the new A, I, D, B, bit 5, X, Y, SP and memory are as before and PC is past the instruction. -/
def Obligations.AdcAddsWithCarry : Prop :=
  let post := fun (v : Byte) (s t : State) =>
    t.a.toNat = (s.a.toNat + v.toNat + flagNat s.p .c) % 256 ∧
    (getFlag t.p .c = true ↔ 255 < s.a.toNat + v.toNat + flagNat s.p .c) ∧
    (getFlag t.p .v = true ↔
      (s.a.toInt + v.toInt + (flagNat s.p .c : Int) < -128 ∨ 127 < s.a.toInt + v.toInt + (flagNat s.p .c : Int))) ∧
    ZNOf t.p t.a ∧ FlagsKeptExcept s.p t.p [.c, .v, .z, .n]
  let postFor := fun (m : MemOperand) (v : Byte) (s t : State) =>
    post v s t ∧ t = { s with a := t.a, p := t.p, pc := s.pc + 1 + BitVec.ofNat 16 m.count }
  (∀ v, ReadsTo (.adcImm v) 0x69 (.immediate v) (postFor (.immediate v))) ∧
  (∀ b, ReadsTo (.adcZp b) 0x65 (.zeroPage b) (postFor (.zeroPage b))) ∧
  (∀ b, ReadsTo (.adcZpx b) 0x75 (.zeroPageX b) (postFor (.zeroPageX b))) ∧
  (∀ a, ReadsTo (.adcAbs a) 0x6D (.absolute a) (postFor (.absolute a))) ∧
  (∀ a, ReadsTo (.adcAbsx a) 0x7D (.absoluteX a) (postFor (.absoluteX a))) ∧
  (∀ a, ReadsTo (.adcAbsy a) 0x79 (.absoluteY a) (postFor (.absoluteY a))) ∧
  (∀ b, ReadsTo (.adcIzx b) 0x61 (.indexedIndirect b) (postFor (.indexedIndirect b))) ∧
  (∀ b, ReadsTo (.adcIzy b) 0x71 (.indirectIndexed b) (postFor (.indirectIndexed b)))

/-- SBC (sbcImm, sbcZp, sbcZpx, sbcAbs, sbcAbsx, sbcAbsy, sbcIzx, sbcIzy) from every state runs to a next state where A is (A - M - (1 - C)) modulo 256, C says the integer difference is at least 0, V says the signed difference leaves -128..127, Z and N are those of the new A, all else but PC as before. -/
def Obligations.SbcSubtractsWithBorrow : Prop :=
  let post := fun (v : Byte) (s t : State) =>
    (t.a.toNat : Int) = ((s.a.toNat : Int) - v.toNat - (1 - (flagNat s.p .c : Int))) % 256 ∧
    (getFlag t.p .c = true ↔ 0 ≤ (s.a.toNat : Int) - v.toNat - (1 - (flagNat s.p .c : Int))) ∧
    (getFlag t.p .v = true ↔
      (s.a.toInt - v.toInt - (1 - (flagNat s.p .c : Int)) < -128 ∨
        127 < s.a.toInt - v.toInt - (1 - (flagNat s.p .c : Int)))) ∧
    ZNOf t.p t.a ∧ FlagsKeptExcept s.p t.p [.c, .v, .z, .n]
  let postFor := fun (m : MemOperand) (v : Byte) (s t : State) =>
    post v s t ∧ t = { s with a := t.a, p := t.p, pc := s.pc + 1 + BitVec.ofNat 16 m.count }
  (∀ v, ReadsTo (.sbcImm v) 0xE9 (.immediate v) (postFor (.immediate v))) ∧
  (∀ b, ReadsTo (.sbcZp b) 0xE5 (.zeroPage b) (postFor (.zeroPage b))) ∧
  (∀ b, ReadsTo (.sbcZpx b) 0xF5 (.zeroPageX b) (postFor (.zeroPageX b))) ∧
  (∀ a, ReadsTo (.sbcAbs a) 0xED (.absolute a) (postFor (.absolute a))) ∧
  (∀ a, ReadsTo (.sbcAbsx a) 0xFD (.absoluteX a) (postFor (.absoluteX a))) ∧
  (∀ a, ReadsTo (.sbcAbsy a) 0xF9 (.absoluteY a) (postFor (.absoluteY a))) ∧
  (∀ b, ReadsTo (.sbcIzx b) 0xE1 (.indexedIndirect b) (postFor (.indexedIndirect b))) ∧
  (∀ b, ReadsTo (.sbcIzy b) 0xF1 (.indirectIndexed b) (postFor (.indirectIndexed b)))

/-- The adder that ADC, SBC and ISC share, on A and a byte b, for every state: A becomes (A + b + C) modulo 256, C says the sum exceeds 255, V says the signed sum leaves -128..127 and equals bit 7 of (a ^ r) & (b ^ r), Z and N are those of the result, every other flag, register and byte is as before. -/
def Obligations.AddWithCarryFollowsItsRule : Prop :=
  ∀ (s : State) (b : Byte), let t := s.addWithCarry b
    t.a.toNat = (s.a.toNat + b.toNat + flagNat s.p .c) % 256 ∧
    (getFlag t.p .c = true ↔ 255 < s.a.toNat + b.toNat + flagNat s.p .c) ∧
    (getFlag t.p .v = true ↔
      (s.a.toInt + b.toInt + (flagNat s.p .c : Int) < -128 ∨ 127 < s.a.toInt + b.toInt + (flagNat s.p .c : Int))) ∧
    getFlag t.p .v = ((s.a ^^^ t.a) &&& (b ^^^ t.a))[7] ∧
    ZNOf t.p t.a ∧ FlagsKeptExcept s.p t.p [.c, .v, .z, .n] ∧ t = { s with a := t.a, p := t.p }

/-- AND (andImm, andZp, andZpx, andAbs, andAbsx, andAbsy, andIzx, andIzy), ORA (oraImm, oraZp, oraZpx, oraAbs, oraAbsx, oraAbsy, oraIzx, oraIzy), EOR (eorImm, eorZp, eorZpx, eorAbs, eorAbsx, eorAbsy, eorIzx, eorIzy) are encoded as the rules say and from every state run to the state with A the combination, Z and N set by it, PC past the instruction, all else unchanged. -/
def Obligations.LogicalOperationsCombineWithA : Prop :=
  let afterAnd := fun (v : Byte) (s : State) => { s with a := s.a &&& v, p := setZN s.p (s.a &&& v) }
  let afterOr := fun (v : Byte) (s : State) => { s with a := s.a ||| v, p := setZN s.p (s.a ||| v) }
  let afterXor := fun (v : Byte) (s : State) => { s with a := s.a ^^^ v, p := setZN s.p (s.a ^^^ v) }
  (∀ v, ReadsAs (.andImm v) 0x29 (.immediate v) afterAnd) ∧
  (∀ b, ReadsAs (.andZp b) 0x25 (.zeroPage b) afterAnd) ∧
  (∀ b, ReadsAs (.andZpx b) 0x35 (.zeroPageX b) afterAnd) ∧
  (∀ a, ReadsAs (.andAbs a) 0x2D (.absolute a) afterAnd) ∧
  (∀ a, ReadsAs (.andAbsx a) 0x3D (.absoluteX a) afterAnd) ∧
  (∀ a, ReadsAs (.andAbsy a) 0x39 (.absoluteY a) afterAnd) ∧
  (∀ b, ReadsAs (.andIzx b) 0x21 (.indexedIndirect b) afterAnd) ∧
  (∀ b, ReadsAs (.andIzy b) 0x31 (.indirectIndexed b) afterAnd) ∧
  (∀ v, ReadsAs (.oraImm v) 0x09 (.immediate v) afterOr) ∧
  (∀ b, ReadsAs (.oraZp b) 0x05 (.zeroPage b) afterOr) ∧
  (∀ b, ReadsAs (.oraZpx b) 0x15 (.zeroPageX b) afterOr) ∧
  (∀ a, ReadsAs (.oraAbs a) 0x0D (.absolute a) afterOr) ∧
  (∀ a, ReadsAs (.oraAbsx a) 0x1D (.absoluteX a) afterOr) ∧
  (∀ a, ReadsAs (.oraAbsy a) 0x19 (.absoluteY a) afterOr) ∧
  (∀ b, ReadsAs (.oraIzx b) 0x01 (.indexedIndirect b) afterOr) ∧
  (∀ b, ReadsAs (.oraIzy b) 0x11 (.indirectIndexed b) afterOr) ∧
  (∀ v, ReadsAs (.eorImm v) 0x49 (.immediate v) afterXor) ∧
  (∀ b, ReadsAs (.eorZp b) 0x45 (.zeroPage b) afterXor) ∧
  (∀ b, ReadsAs (.eorZpx b) 0x55 (.zeroPageX b) afterXor) ∧
  (∀ a, ReadsAs (.eorAbs a) 0x4D (.absolute a) afterXor) ∧
  (∀ a, ReadsAs (.eorAbsx a) 0x5D (.absoluteX a) afterXor) ∧
  (∀ a, ReadsAs (.eorAbsy a) 0x59 (.absoluteY a) afterXor) ∧
  (∀ b, ReadsAs (.eorIzx b) 0x41 (.indexedIndirect b) afterXor) ∧
  (∀ b, ReadsAs (.eorIzy b) 0x51 (.indirectIndexed b) afterXor)

/-- BIT (bitZp, bitAbs) from every state runs to a next state where Z says A & M is 0, N is bit 7 of M, V is bit 6 of M, and C, I, D, B, bit 5, every register but P and PC, and memory are as before. -/
def Obligations.BitTestsMemory : Prop :=
  let postFor := fun (m : MemOperand) (v : Byte) (s t : State) =>
    (getFlag t.p .z = true ↔ s.a &&& v = 0) ∧ (getFlag t.p .n = true ↔ 128 ≤ v.toNat) ∧
    (getFlag t.p .v = true ↔ 64 ≤ v.toNat % 128) ∧ FlagsKeptExcept s.p t.p [.z, .n, .v] ∧
    t = { s with p := t.p, pc := s.pc + 1 + BitVec.ofNat 16 m.count }
  (∀ b, ReadsTo (.bitZp b) 0x24 (.zeroPage b) (postFor (.zeroPage b))) ∧
  (∀ a, ReadsTo (.bitAbs a) 0x2C (.absolute a) (postFor (.absolute a)))

/-- ASL (aslZp, aslZpx, aslAbs, aslAbsx, aslAcc) and LSR (lsrZp, lsrZpx, lsrAbs, lsrAbsx, lsrAcc), on memory and on A, from every state run to a next state where the target is the shifted byte, C the bit shifted out, Z and N those of the result, V, I, D, B, bit 5, every other register and every other byte of memory as before, and PC past the instruction. -/
def Obligations.AslAndLsrShiftByOne : Prop :=
  let flags := fun (out : Prop) (r : Byte) (p q : Byte) =>
    (getFlag q .c = true ↔ out) ∧ ZNOf q r ∧ FlagsKeptExcept p q [.c, .z, .n]
  let aslOf : Byte → State → Byte := fun v _ => BitVec.ofNat 8 (2 * v.toNat)
  let aslPost := fun (v r : Byte) (s t : State) => SameRegisters s t ∧ flags (128 ≤ v.toNat) r s.p t.p
  let lsrOf : Byte → State → Byte := fun v _ => BitVec.ofNat 8 (v.toNat / 2)
  let lsrPost := fun (v r : Byte) (s t : State) => SameRegisters s t ∧ flags (v.toNat % 2 = 1) r s.p t.p
  (∀ b, StoresTo (.aslZp b) 0x06 (.zeroPage b) aslOf aslPost) ∧
  (∀ b, StoresTo (.aslZpx b) 0x16 (.zeroPageX b) aslOf aslPost) ∧
  (∀ a, StoresTo (.aslAbs a) 0x0E (.absolute a) aslOf aslPost) ∧
  (∀ a, StoresTo (.aslAbsx a) 0x1E (.absoluteX a) aslOf aslPost) ∧
  encode .aslAcc = [0x0A] ∧
  (∀ s : State, ∃ t : State, exec .aslAcc s = .next t ∧ t = { s with a := aslOf s.a s, p := t.p, pc := s.pc + 1 } ∧
    flags (128 ≤ s.a.toNat) (aslOf s.a s) s.p t.p) ∧
  (∀ b, StoresTo (.lsrZp b) 0x46 (.zeroPage b) lsrOf lsrPost) ∧
  (∀ b, StoresTo (.lsrZpx b) 0x56 (.zeroPageX b) lsrOf lsrPost) ∧
  (∀ a, StoresTo (.lsrAbs a) 0x4E (.absolute a) lsrOf lsrPost) ∧
  (∀ a, StoresTo (.lsrAbsx a) 0x5E (.absoluteX a) lsrOf lsrPost) ∧
  encode .lsrAcc = [0x4A] ∧
  (∀ s : State, ∃ t : State, exec .lsrAcc s = .next t ∧ t = { s with a := lsrOf s.a s, p := t.p, pc := s.pc + 1 } ∧
    flags (s.a.toNat % 2 = 1) (lsrOf s.a s) s.p t.p)

/-- ROL (rolZp, rolZpx, rolAbs, rolAbsx, rolAcc) and ROR (rorZp, rorZpx, rorAbs, rorAbsx, rorAcc), on memory and on A, from every state run to a next state where the target is the shifted byte, C the bit shifted out, Z and N those of the result, V, I, D, B, bit 5, every other register and every other byte of memory as before, and PC past the instruction. -/
def Obligations.RolAndRorRotateThroughCarry : Prop :=
  let flags := fun (out : Prop) (r : Byte) (p q : Byte) =>
    (getFlag q .c = true ↔ out) ∧ ZNOf q r ∧ FlagsKeptExcept p q [.c, .z, .n]
  let rolOf : Byte → State → Byte := fun v s => BitVec.ofNat 8 (2 * v.toNat + flagNat s.p .c)
  let rolPost := fun (v r : Byte) (s t : State) => SameRegisters s t ∧ flags (128 ≤ v.toNat) r s.p t.p
  let rorOf : Byte → State → Byte := fun v s => BitVec.ofNat 8 (v.toNat / 2 + 128 * flagNat s.p .c)
  let rorPost := fun (v r : Byte) (s t : State) => SameRegisters s t ∧ flags (v.toNat % 2 = 1) r s.p t.p
  (∀ b, StoresTo (.rolZp b) 0x26 (.zeroPage b) rolOf rolPost) ∧
  (∀ b, StoresTo (.rolZpx b) 0x36 (.zeroPageX b) rolOf rolPost) ∧
  (∀ a, StoresTo (.rolAbs a) 0x2E (.absolute a) rolOf rolPost) ∧
  (∀ a, StoresTo (.rolAbsx a) 0x3E (.absoluteX a) rolOf rolPost) ∧
  encode .rolAcc = [0x2A] ∧
  (∀ s : State, ∃ t : State, exec .rolAcc s = .next t ∧ t = { s with a := rolOf s.a s, p := t.p, pc := s.pc + 1 } ∧
    flags (128 ≤ s.a.toNat) (rolOf s.a s) s.p t.p) ∧
  (∀ b, StoresTo (.rorZp b) 0x66 (.zeroPage b) rorOf rorPost) ∧
  (∀ b, StoresTo (.rorZpx b) 0x76 (.zeroPageX b) rorOf rorPost) ∧
  (∀ a, StoresTo (.rorAbs a) 0x6E (.absolute a) rorOf rorPost) ∧
  (∀ a, StoresTo (.rorAbsx a) 0x7E (.absoluteX a) rorOf rorPost) ∧
  encode .rorAcc = [0x6A] ∧
  (∀ s : State, ∃ t : State, exec .rorAcc s = .next t ∧ t = { s with a := rorOf s.a s, p := t.p, pc := s.pc + 1 } ∧
    flags (s.a.toNat % 2 = 1) (rorOf s.a s) s.p t.p)

/-- From every state, nine ROL A in a row run to a state with the A and C it started with (the rotation is through nine bits), X, Y, SP and memory as before and PC nine higher. -/
def Obligations.NineRolsRestoreAccumulatorAndCarry : Prop :=
  ∀ s : State, ∃ t : State,
    (List.replicate 9 Instr.rolAcc).foldl
      (fun r i => match r with | .next u => exec i u | .fault e => .fault e | .refused e => .refused e)
      (Host.Outcome.next s : Result) = .next t ∧
    t.a = s.a ∧ getFlag t.p .c = getFlag s.p .c ∧ t = { s with p := t.p, pc := s.pc + 9 }

/-- CMP (cmpImm, cmpZp, cmpZpx, cmpAbs, cmpAbsx, cmpAbsy, cmpIzx, cmpIzy), CPX (cpxImm, cpxZp, cpxAbs), CPY (cpyImm, cpyZp, cpyAbs) from every state run to a next state where C says the register is at least M as an unsigned number, Z says they are equal, N is bit 7 of the wrapped difference, V, I, D, B, bit 5, every register but P and PC, and memory are as before. -/
def Obligations.ComparesSetCarryZeroNegative : Prop :=
  let post := fun (reg : State → Byte) (m : MemOperand) (v : Byte) (s t : State) =>
    (getFlag t.p .c = true ↔ v.toNat ≤ (reg s).toNat) ∧ (getFlag t.p .z = true ↔ reg s = v) ∧
    (getFlag t.p .n = true ↔ 128 ≤ ((reg s).toNat + 256 - v.toNat) % 256) ∧ FlagsKeptExcept s.p t.p [.c, .z, .n] ∧
    t = { s with p := t.p, pc := s.pc + 1 + BitVec.ofNat 16 m.count }
  (∀ v, ReadsTo (.cmpImm v) 0xC9 (.immediate v) (post State.a (.immediate v))) ∧
  (∀ b, ReadsTo (.cmpZp b) 0xC5 (.zeroPage b) (post State.a (.zeroPage b))) ∧
  (∀ b, ReadsTo (.cmpZpx b) 0xD5 (.zeroPageX b) (post State.a (.zeroPageX b))) ∧
  (∀ a, ReadsTo (.cmpAbs a) 0xCD (.absolute a) (post State.a (.absolute a))) ∧
  (∀ a, ReadsTo (.cmpAbsx a) 0xDD (.absoluteX a) (post State.a (.absoluteX a))) ∧
  (∀ a, ReadsTo (.cmpAbsy a) 0xD9 (.absoluteY a) (post State.a (.absoluteY a))) ∧
  (∀ b, ReadsTo (.cmpIzx b) 0xC1 (.indexedIndirect b) (post State.a (.indexedIndirect b))) ∧
  (∀ b, ReadsTo (.cmpIzy b) 0xD1 (.indirectIndexed b) (post State.a (.indirectIndexed b))) ∧
  (∀ v, ReadsTo (.cpxImm v) 0xE0 (.immediate v) (post State.x (.immediate v))) ∧
  (∀ b, ReadsTo (.cpxZp b) 0xE4 (.zeroPage b) (post State.x (.zeroPage b))) ∧
  (∀ a, ReadsTo (.cpxAbs a) 0xEC (.absolute a) (post State.x (.absolute a))) ∧
  (∀ v, ReadsTo (.cpyImm v) 0xC0 (.immediate v) (post State.y (.immediate v))) ∧
  (∀ b, ReadsTo (.cpyZp b) 0xC4 (.zeroPage b) (post State.y (.zeroPage b))) ∧
  (∀ a, ReadsTo (.cpyAbs a) 0xCC (.absolute a) (post State.y (.absolute a)))

/-- INC (incZp, incZpx, incAbs, incAbsx) and DEC (decZp, decZpx, decAbs, decAbsx) from every state run to a next state where the byte at the effective address is one more or one less modulo 256, Z and N are those of it, every other byte, register and flag but PC is as before. -/
def Obligations.IncAndDecModifyMemory : Prop :=
  let post := fun (_ r : Byte) (s t : State) => SameRegisters s t ∧ ZNOf t.p r ∧ FlagsKeptExcept s.p t.p [.z, .n]
  let incOf : Byte → State → Byte := fun v _ => BitVec.ofNat 8 (v.toNat + 1)
  let decOf : Byte → State → Byte := fun v _ => BitVec.ofNat 8 (v.toNat + 255)
  (∀ b, StoresTo (.incZp b) 0xE6 (.zeroPage b) incOf post) ∧
  (∀ b, StoresTo (.incZpx b) 0xF6 (.zeroPageX b) incOf post) ∧
  (∀ a, StoresTo (.incAbs a) 0xEE (.absolute a) incOf post) ∧
  (∀ a, StoresTo (.incAbsx a) 0xFE (.absoluteX a) incOf post) ∧
  (∀ b, StoresTo (.decZp b) 0xC6 (.zeroPage b) decOf post) ∧
  (∀ b, StoresTo (.decZpx b) 0xD6 (.zeroPageX b) decOf post) ∧
  (∀ a, StoresTo (.decAbs a) 0xCE (.absolute a) decOf post) ∧
  (∀ a, StoresTo (.decAbsx a) 0xDE (.absoluteX a) decOf post)

/-- INX, DEX, INY and DEY are the bytes E8, CA, C8, 88 and from every state run to the state with the register one more or less modulo 256, Z and N set by it, PC one higher, all else unchanged. -/
def Obligations.IndexIncrementsAndDecrements : Prop :=
  ImpliedAs .inx 0xE8 (fun s => { s with x := s.x + 1, p := setZN s.p (s.x + 1) }) ∧
  ImpliedAs .dex 0xCA (fun s => { s with x := s.x - 1, p := setZN s.p (s.x - 1) }) ∧
  ImpliedAs .iny 0xC8 (fun s => { s with y := s.y + 1, p := setZN s.p (s.y + 1) }) ∧
  ImpliedAs .dey 0x88 (fun s => { s with y := s.y - 1, p := setZN s.p (s.y - 1) })

/-- BCC, BCS, BEQ, BMI, BNE, BPL, BVC and BVS from every state run to the state that differs in PC alone: pc0 + 2 plus the signed offset modulo 65536 where the flag has the value they test, pc0 + 2 otherwise; the handler makes no access and the base cycle count is 2 either way. -/
def Obligations.BranchesFollowTheirFlag : Prop :=
  let target := fun (off : Byte) (s : State) => BitVec.ofInt 16 ((s.pc.toNat : Int) + 2 + off.toInt)
  let runs := fun (i : Byte → Instr) (op : Byte) (f : Flag) (value : Bool) => ∀ off : Byte, encode (i off) = [op, off] ∧
    (i off).baseCycles = 2 ∧ (∀ s : State, handlerAccesses (i off) s = []) ∧
    ∀ s : State, exec (i off) s =
      .next { s with pc := if getFlag s.p f = value then target off s else s.pc + 2 }
  runs .bcc 0x90 .c false ∧ runs .bcs 0xB0 .c true ∧ runs .beq 0xF0 .z true ∧ runs .bmi 0x30 .n true ∧ runs .bne 0xD0 .z false ∧ runs .bpl 0x10 .n false ∧ runs .bvc 0x50 .v false ∧ runs .bvs 0x70 .v true

/-- JMP (jmpAbs, jmpInd) is 4C or 6C with a word and from every state runs to the state with PC the word, or for 6C the word read at it with the high byte's address wrapped in the pointer's page; nothing else changes. -/
def Obligations.JmpGoesToTheResolvedAddress : Prop :=
  (∀ a : Addr, encode (.jmpAbs a) = [0x4C, loByte a, hiByte a] ∧ ∀ s : State, exec (.jmpAbs a) s = .next { s with pc := a }) ∧
  (∀ a : Addr, encode (.jmpInd a) = [0x6C, loByte a, hiByte a] ∧ ∀ s : State, exec (.jmpInd a) s =
    .next { s with pc := joinBytes (s.readByte ((a &&& 0xFF00) ||| ((a + 1) &&& 0x00FF))) (s.readByte a) })

/-- Push(v) writes v at 0x0100 + SP, takes SP down by one modulo 256 and changes nothing else; Pull takes SP up by one modulo 256 and returns the byte at 0x0100 + SP; a pull after a push returns the pushed byte and restores SP; every stack address is in 0x0100..0x01FF. -/
def Obligations.PushAndPullStayInPageOne : Prop :=
  (∀ (s : State) (v : Byte), (s.push v).readByte (stackAddr s.sp) = v ∧ (stackAddr s.sp).toNat = 256 + s.sp.toNat ∧
    SameBytesExcept s.mem (s.push v).mem [stackAddr s.sp] ∧
    s.push v = { s with sp := BitVec.ofNat 8 (s.sp.toNat + 255), mem := (s.push v).mem }) ∧
  (∀ s : State, s.pull = { s with sp := BitVec.ofNat 8 (s.sp.toNat + 1) } ∧ s.pulledByte = s.readByte (stackAddr s.pull.sp)) ∧
  (∀ (s : State) (v : Byte), (s.push v).pulledByte = v ∧ (s.push v).pull.sp = s.sp)

/-- JSR (jsr) is 20 with a word; from every state it runs to a next state where the high byte of pc0 + 2 is at 0x0100 + SP, the low byte one below (in page 1), every other byte is as before, SP is two lower, PC is the operand, and A, X, Y and P are as before. -/
def Obligations.JsrPushesReturnAddressMinusOne : Prop :=
  ∀ a : Addr, encode (.jsr a) = [0x20, loByte a, hiByte a] ∧ ∀ s : State, ∃ t : State, exec (.jsr a) s = .next t ∧
    t.readByte (stackAddr s.sp) = hiByte (s.pc + 2) ∧ t.readByte (stackAddr (s.sp - 1)) = loByte (s.pc + 2) ∧
    SameBytesExcept s.mem t.mem [stackAddr s.sp, stackAddr (s.sp - 1)] ∧ t = { s with sp := s.sp - 2, pc := a, mem := t.mem }

/-- RTS is 60; from every state it runs to the state with PC one more than the word whose low byte is at the next stack address and high byte at the one after, SP two higher, all else unchanged. -/
def Obligations.RtsPullsAndAddsOne : Prop :=
  encode .rts = [0x60] ∧ ∀ s : State, exec .rts s = .next { s with
    sp := s.sp + 2
    pc := joinBytes (s.readByte (stackAddr (s.sp + 2))) (s.readByte (stackAddr (s.sp + 1))) + 1 }

/-- PHA is 48 and PHP is 08; from every state they run to a next state where the byte at 0x0100 + SP is A, or P with bit 4 set, every other byte is as before, SP is one lower, PC one higher, all else unchanged; PHP's byte has bits 4 and 5 set wherever bit 5 of P is. -/
def Obligations.PhaAndPhpPush : Prop :=
  let pushes := fun (i : Instr) (op : Byte) (v : State → Byte) => encode i = [op] ∧ ∀ s : State, ∃ t : State,
    exec i s = .next t ∧ t.readByte (stackAddr s.sp) = v s ∧ SameBytesExcept s.mem t.mem [stackAddr s.sp] ∧
    t = { s with sp := s.sp - 1, pc := s.pc + 1, mem := t.mem }
  pushes .pha 0x48 (fun s => s.a) ∧ pushes .php 0x08 (fun s => s.p ||| 0x10) ∧
  (∀ s : State, (s.p ||| 0x10)[4] = true ∧ (s.p ||| 0x10)[5] = s.p[5])

/-- PLA is 68 and PLP is 28; from every state they run to the state with A the pulled byte and Z and N set by it, or with every flag of P that of the pulled byte and bit 5 set; SP is one higher, PC one higher, all else unchanged. -/
def Obligations.PlaAndPlpPull : Prop :=
  (encode .pla = [0x68] ∧ ∀ s : State, exec .pla s = .next { s with
    a := s.readByte (stackAddr (s.sp + 1)), p := setZN s.p (s.readByte (stackAddr (s.sp + 1))), sp := s.sp + 1, pc := s.pc + 1 }) ∧
  (encode .plp = [0x28] ∧ ∀ s : State, ∃ t : State, exec .plp s = .next t ∧
    t = { s with p := t.p, sp := s.sp + 1, pc := s.pc + 1 } ∧ t.p[5] = true ∧
    ∀ f : Flag, getFlag t.p f = getFlag (s.readByte (stackAddr (s.sp + 1))) f)

/-- BRK is 00; from every state, whatever I holds, it runs to a next state where the three stack bytes hold the high byte of pc0 + 2, its low byte, and P with bit 4 set, every other byte is as before, SP is three lower, I is 1 and every other bit of P as before, PC is the word at 0xFFFE and 0xFFFF, A, X and Y as before. -/
def Obligations.BrkTakesTheInterrupt : Prop :=
  encode .brk = [0x00] ∧ ∀ s : State, ∃ t : State, exec .brk s = .next t ∧
    t.readByte (stackAddr s.sp) = hiByte (s.pc + 2) ∧ t.readByte (stackAddr (s.sp - 1)) = loByte (s.pc + 2) ∧
    t.readByte (stackAddr (s.sp - 2)) = s.p ||| 0x10 ∧
    SameBytesExcept s.mem t.mem [stackAddr s.sp, stackAddr (s.sp - 1), stackAddr (s.sp - 2)] ∧
    getFlag t.p .i = true ∧ FlagsKeptExcept s.p t.p [.i] ∧
    t = { s with sp := s.sp - 3, p := t.p, pc := joinBytes (s.readByte 0xFFFF) (s.readByte 0xFFFE), mem := t.mem }

/-- RTI is 40; from every state it runs to the state with every flag of P that of the first pulled byte and bit 5 set, PC the word of the next two bytes, SP three higher, all else unchanged. -/
def Obligations.RtiRestoresStatusAndPc : Prop :=
  encode .rti = [0x40] ∧ ∀ s : State, ∃ t : State, exec .rti s = .next t ∧ t.p[5] = true ∧
    (∀ f : Flag, getFlag t.p f = getFlag (s.readByte (stackAddr (s.sp + 1))) f) ∧
    t = { s with
      sp := s.sp + 3
      p := t.p
      pc := joinBytes (s.readByte (stackAddr (s.sp + 3))) (s.readByte (stackAddr (s.sp + 2))) }

/-- From every state and for every target, the RTS that follows a JSR with the stack untouched runs to the state JSR left, with SP as before the JSR and PC three past its opcode byte, for every SP and PC (both may wrap). -/
def Obligations.JsrThenRtsReturnsPastTheCall : Prop :=
  ∀ (a : Addr) (s : State), ∃ t : State, exec (.jsr a) s = .next t ∧ exec .rts t = .next { t with sp := s.sp, pc := s.pc + 3 }

/-- From every state, the RTI that follows a BRK with the stack untouched runs to the state BRK left, with SP as before, PC two past the BRK and P as before but for bits 4 and 5 set: I has its old value. -/
def Obligations.BrkThenRtiReturnsPastThePadding : Prop :=
  ∀ s : State, ∃ t : State, exec .brk s = .next t ∧ exec .rti t = .next { t with sp := s.sp, p := s.p ||| 0x30, pc := s.pc + 2 }

/-- From every state PHA then PLA gives back A with Z and N set by it, and PHP then PLP gives P as before but for bits 4 and 5 set; SP is as before and PC two higher. -/
def Obligations.PushThenPullRestores : Prop :=
  ∀ s : State,
    (∃ t : State, exec .pha s = .next t ∧ exec .pla t = .next { t with p := setZN s.p s.a, sp := s.sp, pc := s.pc + 2 }) ∧
    (∃ t : State, exec .php s = .next t ∧ exec .plp t = .next { t with p := s.p ||| 0x30, sp := s.sp, pc := s.pc + 2 })

/-- TAX, TAY, TSX, TXA and TYA are AA, A8, BA, 8A, 98 and from every state run to the state with the destination the source and Z and N set by it; TXS is 9A and sets SP to X and no flag; PC one higher, all else unchanged. -/
def Obligations.TransfersCopyRegisters : Prop :=
  ImpliedAs .tax 0xAA (fun s => { s with x := s.a, p := setZN s.p s.a }) ∧
  ImpliedAs .tay 0xA8 (fun s => { s with y := s.a, p := setZN s.p s.a }) ∧
  ImpliedAs .tsx 0xBA (fun s => { s with x := s.sp, p := setZN s.p s.sp }) ∧
  ImpliedAs .txa 0x8A (fun s => { s with a := s.x, p := setZN s.p s.x }) ∧
  ImpliedAs .txs 0x9A (fun s => { s with sp := s.x }) ∧
  ImpliedAs .tya 0x98 (fun s => { s with a := s.y, p := setZN s.p s.y })

/-- CLC, SEC, CLI, SEI, CLV, CLD and SED from every state run to a next state where the one flag has the value and every other bit of P, every register but PC and all memory are as before; NOP changes PC alone and makes no access after its fetch; PC is one higher. -/
def Obligations.FlagOperationsAndNop : Prop :=
  let writes := fun (i : Instr) (op : Byte) (f : Flag) (on : Bool) => encode i = [op] ∧ ∀ s : State, ∃ t : State,
    exec i s = .next t ∧ getFlag t.p f = on ∧ FlagsKeptExcept s.p t.p [f] ∧ t = { s with p := t.p, pc := s.pc + 1 }
  writes .clc 0x18 .c false ∧ writes .sec 0x38 .c true ∧ writes .cli 0x58 .i false ∧ writes .sei 0x78 .i true ∧ writes .clv 0xB8 .v false ∧ writes .cld 0xD8 .d false ∧ writes .sed 0xF8 .d true ∧
  (encode .nop = [0xEA] ∧ ∀ s : State, exec .nop s = .next { s with pc := s.pc + 1 } ∧ handlerAccesses .nop s = [])

/-- LAX (laxZp, laxZpy, laxAbs, laxAbsy, laxIzx, laxIzy) from every state runs to the state with A and X the memory operand and Z and N set by it; SAX (saxZp, saxZpy, saxAbs, saxIzx) to a next state where the byte at the effective address is A & X, every other byte, register and flag as before, its handler making that one write and no read; PC past the instruction; with UNOFFICIAL_EXEC false their bytes are illegal. -/
def Obligations.LaxLoadsBothAndSaxStoresTheirAnd : Prop :=
  let after := fun (v : Byte) (s : State) => { s with a := v, x := v, p := setZN s.p v }
  let kept := fun (_ _ : Byte) (s t : State) => SameRegisters s t ∧ t.p = s.p
  (∀ b, ReadsAs (.laxZp b) 0xA7 (.zeroPage b) after) ∧
  (∀ b, ReadsAs (.laxZpy b) 0xB7 (.zeroPageY b) after) ∧
  (∀ a, ReadsAs (.laxAbs a) 0xAF (.absolute a) after) ∧
  (∀ a, ReadsAs (.laxAbsy a) 0xBF (.absoluteY a) after) ∧
  (∀ b, ReadsAs (.laxIzx b) 0xA3 (.indexedIndirect b) after) ∧
  (∀ b, ReadsAs (.laxIzy b) 0xB3 (.indirectIndexed b) after) ∧
  (∀ b, StoresTo (.saxZp b) 0x87 (.zeroPage b) (fun _ s => s.a &&& s.x) kept) ∧
  (∀ b, StoresTo (.saxZpy b) 0x97 (.zeroPageY b) (fun _ s => s.a &&& s.x) kept) ∧
  (∀ a, StoresTo (.saxAbs a) 0x8F (.absolute a) (fun _ s => s.a &&& s.x) kept) ∧
  (∀ b, StoresTo (.saxIzx b) 0x83 (.indexedIndirect b) (fun _ s => s.a &&& s.x) kept) ∧
  (∀ (i : Instr) (m : MemOperand) (s : State), i.mnemonic = .sax → i.operand = .mem m → ∃ v : Byte, handlerAccesses i s = [.write (effAddr m s) v]) ∧
  (∀ (i : Instr) (b1 b2 : Byte), i.mnemonic = .lax ∨ i.mnemonic = .sax → decodeWith false i.desc.opcode b1 b2 = none)

/-- DCP (dcpZp, dcpZpx, dcpAbs, dcpAbsx, dcpAbsy, dcpIzx, dcpIzy) from every state runs to a next state where the byte at the effective address is one less modulo 256, C says A is at least that byte, Z that they are equal, N is bit 7 of the wrapped difference, V, I, D, B, bit 5, A, X, Y, SP and every other byte are as before; with UNOFFICIAL_EXEC false its bytes are illegal. -/
def Obligations.DcpDecrementsAndCompares : Prop :=
  let decOf : Byte → State → Byte := fun v _ => BitVec.ofNat 8 (v.toNat + 255)
  let post := fun (_ r : Byte) (s t : State) => SameRegisters s t ∧ (getFlag t.p .c = true ↔ r.toNat ≤ s.a.toNat) ∧
    (getFlag t.p .z = true ↔ s.a = r) ∧ (getFlag t.p .n = true ↔ 128 ≤ (s.a.toNat + 256 - r.toNat) % 256) ∧
    FlagsKeptExcept s.p t.p [.c, .z, .n]
  (∀ b, StoresTo (.dcpZp b) 0xC7 (.zeroPage b) decOf post) ∧
  (∀ b, StoresTo (.dcpZpx b) 0xD7 (.zeroPageX b) decOf post) ∧
  (∀ a, StoresTo (.dcpAbs a) 0xCF (.absolute a) decOf post) ∧
  (∀ a, StoresTo (.dcpAbsx a) 0xDF (.absoluteX a) decOf post) ∧
  (∀ a, StoresTo (.dcpAbsy a) 0xDB (.absoluteY a) decOf post) ∧
  (∀ b, StoresTo (.dcpIzx b) 0xC3 (.indexedIndirect b) decOf post) ∧
  (∀ b, StoresTo (.dcpIzy b) 0xD3 (.indirectIndexed b) decOf post) ∧
  (∀ (i : Instr) (b1 b2 : Byte), i.mnemonic = .dcp → decodeWith false i.desc.opcode b1 b2 = none)

/-- ISC (iscZp, iscZpx, iscAbs, iscAbsx, iscAbsy, iscIzx, iscIzy) from every state runs to a next state where the byte r at the effective address is one more modulo 256, A is (A - r - (1 - C)) modulo 256, C says the integer difference is at least 0, V that the signed one leaves -128..127, Z and N are those of the new A, I, D, B, bit 5, X, Y, SP and every other byte are as before; with UNOFFICIAL_EXEC false its bytes are illegal. -/
def Obligations.IscIncrementsAndSubtracts : Prop :=
  let incOf : Byte → State → Byte := fun v _ => BitVec.ofNat 8 (v.toNat + 1)
  let post := fun (_ r : Byte) (s t : State) => t.x = s.x ∧ t.y = s.y ∧ t.sp = s.sp ∧
    (t.a.toNat : Int) = ((s.a.toNat : Int) - r.toNat - (1 - (flagNat s.p .c : Int))) % 256 ∧
    (getFlag t.p .c = true ↔ 0 ≤ (s.a.toNat : Int) - r.toNat - (1 - (flagNat s.p .c : Int))) ∧
    (getFlag t.p .v = true ↔
      (s.a.toInt - r.toInt - (1 - (flagNat s.p .c : Int)) < -128 ∨
        127 < s.a.toInt - r.toInt - (1 - (flagNat s.p .c : Int)))) ∧
    ZNOf t.p t.a ∧ FlagsKeptExcept s.p t.p [.c, .v, .z, .n]
  (∀ b, StoresTo (.iscZp b) 0xE7 (.zeroPage b) incOf post) ∧
  (∀ b, StoresTo (.iscZpx b) 0xF7 (.zeroPageX b) incOf post) ∧
  (∀ a, StoresTo (.iscAbs a) 0xEF (.absolute a) incOf post) ∧
  (∀ a, StoresTo (.iscAbsx a) 0xFF (.absoluteX a) incOf post) ∧
  (∀ a, StoresTo (.iscAbsy a) 0xFB (.absoluteY a) incOf post) ∧
  (∀ b, StoresTo (.iscIzx b) 0xE3 (.indexedIndirect b) incOf post) ∧
  (∀ b, StoresTo (.iscIzy b) 0xF3 (.indirectIndexed b) incOf post) ∧
  (∀ (i : Instr) (b1 b2 : Byte), i.mnemonic = .isc → decodeWith false i.desc.opcode b1 b2 = none)

/-- From every state every instruction runs to a next state, and every step either runs to a next state or stops with IllegalOpcode of the fetched byte, which happens exactly where that byte has no descriptor. -/
def Obligations.EveryInstructionCompletes : Prop :=
  (∀ (i : Instr) (s : State), ∃ t : State, exec i s = .next t) ∧
  (∀ s : State, (∃ t : State, step s = .next t ∧ lookup (s.readByte s.pc) ≠ none) ∨
    (step s = .fault (.illegalOpcode (s.readByte s.pc)) ∧ lookup (s.readByte s.pc) = none))

/-- For every state with the invariant (bit 5 of P is 1 and the memory list is in canonical form), reachable or not: if step answers a next state it has the invariant, and so has every state a run from it reaches. The canonical form is the model's own (log 1, log 9). -/
def Obligations.EveryStepKeepsTheInvariant : Prop :=
  (∀ s t : State, s.Inv → step s = .next t → t.Inv) ∧ (∀ (n : Nat) (s t : State), s.Inv → Reaches n s t → t.Inv)

/-- State.reset has bit 5 of P set and canonical memory, and so has a freshly constructed core over any canonical memory image; State.reset is the power-on state over the empty list with the reset command applied (that its memory lists nothing and reads 0, so that PC is 0, is the model's choice: log 1, log 2). -/
def Obligations.InvariantHoldsAtReset : Prop :=
  State.reset.Inv ∧ (∀ image : Memory, image.wf = true → (State.powerOn image).Inv) ∧
  State.reset = (State.powerOn []).resetCommand

/-- From every state, also one launched with bit 5 clear, every instruction runs to a next state whose bit 5 of P is 1 for PLP and RTI and as before for every other; and the power-on state has it set. -/
def Obligations.StatusBitFiveIsKeptOrForced : Prop :=
  State.reset.p[5] = true ∧ (∀ image : Memory, (State.powerOn image).p[5] = true) ∧
  ∀ (i : Instr) (s : State), ∃ t : State, exec i s = .next t ∧
    t.p[5] = if i.mnemonic = .plp ∨ i.mnemonic = .rti then true else s.p[5]

/-- Every instruction runs from every state to a next state in which A is as before unless the instruction is a writer of A in R31 (the shifts and rotates only in Accumulator mode), and so for X, Y and SP with R32, R33 and R34. -/
def Obligations.RegistersHaveOnlyTheirWriters : Prop :=
  ∀ (i : Instr) (s : State), ∃ t : State, exec i s = .next t ∧
    (i.mnemonic ∉ aWriters → i.operand ≠ .accumulator → t.a = s.a) ∧ (i.mnemonic ∉ xWriters → t.x = s.x) ∧
    (i.mnemonic ∉ yWriters → t.y = s.y) ∧ (i.mnemonic ∉ spWriters → t.sp = s.sp)

/-- Every instruction runs from every state to a next state; unless it is a branch, JMP, JSR, RTS, BRK or RTI, PC is then pc0 + 1 plus its operand byte count, modulo 65536. -/
def Obligations.OnlyControlTransfersLeaveThePostFetchPc : Prop :=
  ∀ (i : Instr) (s : State), ∃ t : State, exec i s = .next t ∧
    (i.mnemonic ∉ pcWriters → t.pc.toNat = (s.pc.toNat + 1 + i.operand.count) % 65536) ∧
    (i.mnemonic ∈ [.bcc, .bcs, .beq, .bmi, .bne, .bpl, .bvc, .bvs] → t.pc ≠ s.pc + 2 →
      ∃ off : Byte, i.operand = .mem (.relative off) ∧ t.pc = effAddr (.relative off) s)

/-- Every instruction runs from every state to a next state in which each of C, Z, I, D, B, V and N that does not list the instruction among its writers in R37 has its old value. -/
def Obligations.FlagsHaveOnlyTheirWriters : Prop :=
  ∀ (i : Instr) (s : State), ∃ t : State, exec i s = .next t ∧
    ∀ f : Flag, i.mnemonic ∉ flagWriters f → getFlag t.p f = getFlag s.p f

/-- Every instruction runs from every state to a next state in which every byte of memory is as before except at the addresses it stores to: the effective address for the store and read-modify-write classes, the stack bytes for PHA, PHP, JSR and BRK, none for the rest. -/
def Obligations.MemoryChangesOnlyWhereStored : Prop :=
  ∀ (i : Instr) (s : State), ∃ t : State, exec i s = .next t ∧ SameBytesExcept s.mem t.mem (storedAddresses i s) ∧
    (storedAddresses i s = [] → t.mem = s.mem)

/-- For every instruction but PHP, BRK, PLP, RTI, CLD and SED, running it after setting D to any value gives what running it before does, with D so set; PLP, RTI, CLD and SED give the same state whatever D was; PHP and BRK give states that differ in D and in the pushed status byte alone; so ADC and SBC stay binary. -/
def Obligations.DecimalFlagIsInert : Prop :=
  ∀ (i : Instr) (s : State) (on : Bool),
    (i.mnemonic ∉ [.php, .brk, .plp, .rti, .cld, .sed] →
      exec i (s.putFlag .d on) = onNext (fun t => t.putFlag .d on) (exec i s)) ∧
    (i.mnemonic ∈ [.plp, .rti, .cld, .sed] → exec i (s.putFlag .d on) = exec i s) ∧
    (i.mnemonic ∈ [.php, .brk] → ∃ t u : State, exec i s = .next t ∧ exec i (s.putFlag .d on) = .next u ∧
      u = { t.putFlag .d on with mem := u.mem } ∧
      SameBytesExcept t.mem u.mem [if i.mnemonic = .php then stackAddr s.sp else stackAddr (s.sp - 2)])

/-- For every instruction but those that write or push I, running it after setting I gives what running it before does with I so set, and BRK is taken whatever I holds; for every instruction but PLP and RTI the same holds of B, PHP and BRK included, since they push bit 4 set. -/
def Obligations.InterruptAndBreakFlagsGateNothing : Prop :=
  ∀ (i : Instr) (s : State) (on : Bool),
    (i.mnemonic ∉ [.php, .brk, .plp, .rti, .cli, .sei] →
      exec i (s.putFlag .i on) = onNext (fun t => t.putFlag .i on) (exec i s)) ∧
    (∃ t u : State, exec .brk s = .next t ∧ exec .brk (s.putFlag .i on) = .next u ∧ u = { t with mem := u.mem }) ∧
    (i.mnemonic ∉ [.plp, .rti] → exec i (s.putFlag .b on) = onNext (fun t => t.putFlag .b on) (exec i s))

/-- From every state, the bus accesses listed for the step (opcode, operand and pointer reads, then the handler's reads and writes) replay on the memory: each read gets the byte listed, and the memory left is the memory after the step. A read left out of the list, or two reads changed over, it does not show. -/
def Obligations.BusAccessesAccountForTheStep : Prop :=
  ∀ s : State, replay (busAccesses s) s.mem = some s.afterStep.mem

/-- For each of the 175 admitted bytes, a step at that byte returns Ok of the cycle count the tables of R114 and R116 give it, from every state (a branch taken or not, a page crossed or not), and a step at any other byte returns the error. -/
def Obligations.StepReturnsTheTableCycleCount : Prop :=
  let table := fun (cycles : Nat) (ops : List Byte) => ∀ s : State, s.readByte s.pc ∈ ops → stepResult s = .ok cycles
  table 2 [0x09, 0x0A, 0x10, 0x18, 0x29, 0x2A, 0x30, 0x38, 0x49, 0x4A, 0x50, 0x58, 0x69, 0x6A, 0x70, 0x78, 0x88, 0x8A,
    0x90, 0x98, 0x9A, 0xA0, 0xA2, 0xA8, 0xA9, 0xAA, 0xB0, 0xB8, 0xBA, 0xC0, 0xC8, 0xC9, 0xCA, 0xD0, 0xD8, 0xE0,
    0xE8, 0xE9, 0xEA, 0xF0, 0xF8] ∧
  table 3 [0x05, 0x08, 0x24, 0x25, 0x45, 0x48, 0x4C, 0x65, 0x84, 0x85, 0x86, 0x87, 0xA4, 0xA5, 0xA6, 0xA7, 0xC4, 0xC5,
    0xE4, 0xE5] ∧
  table 4 [0x0D, 0x15, 0x19, 0x1D, 0x28, 0x2C, 0x2D, 0x35, 0x39, 0x3D, 0x4D, 0x55, 0x59, 0x5D, 0x68, 0x6D, 0x75, 0x79,
    0x7D, 0x8C, 0x8D, 0x8E, 0x8F, 0x94, 0x95, 0x96, 0x97, 0xAC, 0xAD, 0xAE, 0xAF, 0xB4, 0xB5, 0xB6, 0xB7, 0xB9,
    0xBC, 0xBD, 0xBE, 0xBF, 0xCC, 0xCD, 0xD5, 0xD9, 0xDD, 0xEC, 0xED, 0xF5, 0xF9, 0xFD] ∧
  table 5 [0x06, 0x11, 0x26, 0x31, 0x46, 0x51, 0x66, 0x6C, 0x71, 0x99, 0x9D, 0xB1, 0xB3, 0xC6, 0xC7, 0xD1, 0xE6, 0xE7,
    0xF1] ∧
  table 6 [0x01, 0x0E, 0x16, 0x20, 0x21, 0x2E, 0x36, 0x40, 0x41, 0x4E, 0x56, 0x60, 0x61, 0x6E, 0x76, 0x81, 0x83, 0x91,
    0xA1, 0xA3, 0xC1, 0xCE, 0xCF, 0xD6, 0xD7, 0xE1, 0xEE, 0xEF, 0xF6, 0xF7] ∧
  table 7 [0x00, 0x1E, 0x3E, 0x5E, 0x7E, 0xDB, 0xDE, 0xDF, 0xFB, 0xFE, 0xFF] ∧
  table 8 [0xC3, 0xD3, 0xE3, 0xF3] ∧
  (∀ s : State, lookup (s.readByte s.pc) = none → stepResult s = .illegalOpcode (s.readByte s.pc))

/-- A fresh core over any memory has A = X = Y = 0, SP = 0xFD, P = 0x34, PC = 0 and that memory; the reset command from every state makes PC 256 times the byte at 0xFFFD plus the byte at 0xFFFC, reads those two bytes only, low first, returns nothing and changes nothing else. -/
def Obligations.PowerOnAndResetState : Prop :=
  (∀ image : Memory, State.powerOn image =
    { a := 0, x := 0, y := 0, sp := 0xFD, p := 0x34, pc := 0, mem := image }) ∧
  (∀ s : State, ∃ t : State, Command.reset.run s = t ∧ t = { s with pc := t.pc } ∧
    t.pc.toNat = 256 * (s.readByte 0xFFFD).toNat + (s.readByte 0xFFFC).toNat ∧ Command.reset.reply s = none ∧
    resetAccesses s = [.read 0xFFFC (s.readByte 0xFFFC), .read 0xFFFD (s.readByte 0xFFFD)])

/-- After any sequence of writes, a read gives the value most recently written at its address, or the byte from before where none was; a write keeps the canonical form; and two memories in canonical form that read alike at every address are the same list (the form is the model's own: log 1, log 9). -/
def Obligations.MemoryReadsTheMostRecentWrite : Prop :=
  (∀ (writes : List (Addr × Byte)) (m : Memory) (a : Addr),
    (writes.foldl (fun acc w => acc.write w.1 w.2) m).read a =
      match writes.reverse.find? (fun w => w.1 == a) with | some w => w.2 | none => m.read a) ∧
  (∀ (m : Memory) (a : Addr) (v : Byte), m.wf = true → (m.write a v).wf = true) ∧
  (∀ m m' : Memory, m.wf = true → m'.wf = true → (∀ a : Addr, m.read a = m'.read a) → m = m')

/-- For every sequence of host commands whose launch register states have bit 5 of P set, the invariant holds after it if it held before; construct, reset and launch leave memory as it is, and a poke changes its one byte and no register. The canonical form in the invariant is the model's choice (log 1, log 9), and so is having the commands as functions beside step (log 12). -/
def Obligations.HostCommandsKeepTheInvariant : Prop :=
  (∀ (cs : List Command) (s : State),
    (∀ a x y sp p pc, Command.launch a x y sp p pc ∈ cs → p[5] = true) → s.Inv → (runCommands cs s).Inv) ∧
  (∀ (c : Command) (s : State), c ≠ .step → (∀ a v, c ≠ .poke a v) → (c.run s).mem = s.mem) ∧
  (∀ (a : Addr) (v : Byte) (s : State), (Command.run (.poke a v) s).readByte a = v ∧
    SameBytesExcept s.mem (Command.run (.poke a v) s).mem [a] ∧
    Command.run (.poke a v) s = { s with mem := (Command.run (.poke a v) s).mem })
end

