-- ==== Sys2Proof/Laws/Flags.lean ====
section
/-! SUPPORT. The laws of the status byte: which bit each flag computation writes, and that bit 5 is written by none of them. -/

namespace Sys2Proof.Machine

/-- Every bit of P after `set_flag`: the flag's own bit, the rest unchanged (R40). -/
theorem getLsbD_setFlag (p : Byte) (f : Flag) (on : Bool) (k : Nat) (hk : k < 8) :
    (setFlag p f on).getLsbD k = if k = f.bit then on else p.getLsbD k := by
  obtain rfl | rfl | rfl | rfl | rfl | rfl | rfl | rfl : k = 0 ∨ k = 1 ∨ k = 2 ∨ k = 3 ∨ k = 4 ∨ k = 5 ∨ k = 6 ∨ k = 7 := by
    omega
  all_goals cases f <;> cases on <;> simp [setFlag, Flag.bit]

/-- A flag read after a flag write. -/
@[simp] theorem getFlag_setFlag (p : Byte) (f g : Flag) (on : Bool) :
    getFlag (setFlag p f on) g = if g = f then on else getFlag p g := by
  have hg : g.bit < 8 := by cases g <;> decide
  simp only [getFlag, getLsbD_setFlag p f on g.bit hg]
  cases f <;> cases g <;> rfl

/-- No flag write reaches bit 5 (R38, R40). -/
@[simp] theorem bit5_setFlag (p : Byte) (f : Flag) (on : Bool) : (setFlag p f on)[5] = p[5] := by
  have h := getLsbD_setFlag p f on 5 (by decide)
  cases f <;> simpa [Flag.bit] using h

@[simp] theorem bit5_setZN (p v : Byte) : (setZN p v)[5] = p[5] := by simp only [setZN, bit5_setFlag]

@[simp] theorem bit5_setCZN (p : Byte) (c : Bool) (r : Byte) : (setCZN p c r)[5] = p[5] := by
  simp only [setCZN, bit5_setZN, bit5_setFlag]

@[simp] theorem bit5_adderFlags (p a b : Byte) : (adderFlags p a b)[5] = p[5] := by
  simp only [adderFlags, bit5_setZN, bit5_setFlag]

@[simp] theorem bit5_compareFlags (p r v : Byte) : (compareFlags p r v)[5] = p[5] := by
  simp only [compareFlags, bit5_setCZN]

@[simp] theorem bit5_bitFlags (p a v : Byte) : (bitFlags p a v)[5] = p[5] := by
  simp only [bitFlags, bit5_setFlag]

/-- A pulled status has bit 5 set (R38, D1). -/
@[simp] theorem bit5_pulledStatus (v : Byte) : (pulledStatus v)[5] = true := by simp [pulledStatus]

/-- The adder's carry says its sum exceeds 255 (R161). -/
theorem adderCarry_iff (p a b : Byte) : adderCarry p a b = true ↔ 255 < a.toNat + b.toNat + flagNat p .c :=
  decide_eq_true_iff

/-- The adder's overflow says its signed sum leaves -128..127 (R161). -/
theorem adderOverflow_iff (p a b : Byte) : adderOverflow p a b = true ↔
    (a.toInt + b.toInt + (flagNat p .c : Int) < -128 ∨ 127 < a.toInt + b.toInt + (flagNat p .c : Int)) :=
  decide_eq_true_iff

/-- The flags of SetZN (R42). -/
@[simp] theorem getFlag_setZN (p v : Byte) (g : Flag) :
    getFlag (setZN p v) g = if g = .n then v[7] else if g = .z then v == 0 else getFlag p g := by
  simp only [setZN, getFlag_setFlag]

/-- The flags of a shift or comparison. -/
@[simp] theorem getFlag_setCZN (p : Byte) (c : Bool) (r : Byte) (g : Flag) :
    getFlag (setCZN p c r) g =
      if g = .n then r[7] else if g = .z then r == 0 else if g = .c then c else getFlag p g := by
  simp only [setCZN, getFlag_setZN, getFlag_setFlag]

/-- The flags of the adder (R161). -/
@[simp] theorem getFlag_adderFlags (p a b : Byte) (g : Flag) :
    getFlag (adderFlags p a b) g =
      if g = .n then (adderResult p a b)[7] else if g = .z then adderResult p a b == 0
      else if g = .v then adderOverflow p a b else if g = .c then adderCarry p a b else getFlag p g := by
  simp only [adderFlags, getFlag_setZN, getFlag_setFlag]

/-- The flags of BIT (R173). -/
@[simp] theorem getFlag_bitFlags (p a v : Byte) (g : Flag) :
    getFlag (bitFlags p a v) g =
      if g = .v then v[6] else if g = .n then v[7] else if g = .z then (a &&& v) == 0 else getFlag p g := by
  simp only [bitFlags, getFlag_setFlag]

/-- Two status bytes with equal flags and equal bit 5 are equal (R37). -/
theorem status_ext {p q : Byte} (hf : ∀ f, getFlag p f = getFlag q f) (h5 : p[5] = q[5]) : p = q := by
  apply BitVec.eq_of_getLsbD_eq
  intro k hk
  obtain rfl | rfl | rfl | rfl | rfl | rfl | rfl | rfl : k = 0 ∨ k = 1 ∨ k = 2 ∨ k = 3 ∨ k = 4 ∨ k = 5 ∨ k = 6 ∨ k = 7 := by
    omega
  · exact hf .c
  · exact hf .z
  · exact hf .i
  · exact hf .d
  · exact hf .b
  · simpa using h5
  · exact hf .v
  · exact hf .n

end Sys2Proof.Machine
end

