-- ==== Sys2Proof/Laws/Memory.lean ====
section
/-! SUPPORT. The laws of memory: a read after a write, and the canonical form every write keeps. They hold of every
memory list but where `wf` is a premise. -/

namespace Sys2Proof.Machine

theorem Memory.find_remove (m : Memory) (a b : Nat) :
    (m.remove a).find b = if b = a then Config.unlistedByte else m.find b := by
  induction m with
  | nil => simp [Memory.remove, Memory.find]
  | cons c rest ih =>
    obtain ⟨k, v⟩ := c
    by_cases hk : k = a
    · subst hk
      by_cases hb : b = k
      · simpa [Memory.remove, hb] using ih
      · simp [Memory.remove, Memory.find, ih, hb, Ne.symm hb]
    · by_cases hb : k = b
      · subst hb; simp [Memory.remove, Memory.find, hk]
      · simp [Memory.remove, Memory.find, hk, hb, ih]

theorem Memory.find_insert (m : Memory) (a b : Nat) (v : Byte) (h : b ≠ a) : (m.insert a v).find b = m.find b := by
  induction m with
  | nil => simp [Memory.insert, Memory.find, Ne.symm h]
  | cons c rest ih =>
    obtain ⟨k, w⟩ := c
    by_cases hk : a < k
    · simp [Memory.insert, Memory.find, hk, Ne.symm h]
    · simp [Memory.insert, Memory.find, hk, ih]

theorem Memory.find_insert_remove (m : Memory) (a : Nat) (v : Byte) : ((m.remove a).insert a v).find a = v := by
  induction m with
  | nil => simp [Memory.remove, Memory.insert, Memory.find]
  | cons c rest ih =>
    obtain ⟨k, w⟩ := c
    by_cases hk : k = a
    · simpa [Memory.remove, hk] using ih
    · by_cases hlt : a < k
      · simp [Memory.remove, hk, Memory.insert, hlt, Memory.find]
      · simp [Memory.remove, hk, Memory.insert, hlt, Memory.find, ih]

/-- A read after a write: the byte written at its address, the old byte elsewhere (R62). -/
theorem Memory.find_write (m : Memory) (a : Addr) (v : Byte) (b : Nat) :
    (m.write a v).find b = if b = a.toNat then v else m.find b := by
  unfold Memory.write
  split
  · next h => rw [Memory.find_remove, h]
  · split
    · next h => rw [h, Memory.find_insert_remove]
    · next h => rw [Memory.find_insert _ _ _ _ h, Memory.find_remove, if_neg h]

@[simp] theorem Memory.read_write_same (m : Memory) (a : Addr) (v : Byte) : (m.write a v).read a = v := by
  simp [Memory.read, Memory.find_write]

theorem Memory.read_write_other (m : Memory) {a b : Addr} (v : Byte) (h : b ≠ a) : (m.write a v).read b = m.read b := by
  simp [Memory.read, Memory.find_write, ← BitVec.toNat_eq, h]

/-- Both cases of a read after a write. -/
theorem Memory.read_write (m : Memory) (a b : Addr) (v : Byte) : (m.write a v).read b = if b = a then v else m.read b := by
  by_cases h : b = a
  · simp [h]
  · simp [h, Memory.read_write_other m v h]

/-! ## The canonical form -/

theorem Memory.wfFrom_mono {low low' : Nat} {m : Memory} (hle : low' ≤ low) (h : Memory.wfFrom low m = true) :
    Memory.wfFrom low' m = true := by
  cases m with
  | nil => rfl
  | cons c rest =>
    obtain ⟨k, v⟩ := c
    simp only [Memory.wfFrom, Bool.and_eq_true, decide_eq_true_eq] at h ⊢
    exact ⟨⟨⟨Nat.le_trans hle h.1.1.1, h.1.1.2⟩, h.1.2⟩, h.2⟩

theorem Memory.wfFrom_remove {low : Nat} {m : Memory} (a : Nat) (h : Memory.wfFrom low m = true) :
    Memory.wfFrom low (m.remove a) = true := by
  induction m generalizing low with
  | nil => rfl
  | cons c rest ih =>
    obtain ⟨k, v⟩ := c
    simp only [Memory.wfFrom, Bool.and_eq_true, decide_eq_true_eq] at h
    by_cases hk : k = a
    · simp only [Memory.remove, hk, if_true]
      exact Memory.wfFrom_mono (Nat.le_succ_of_le (hk ▸ h.1.1.1)) (hk ▸ ih h.2)
    · simp only [Memory.remove, hk, if_false, Memory.wfFrom, Bool.and_eq_true, decide_eq_true_eq]
      exact ⟨h.1, ih h.2⟩

theorem Memory.wfFrom_insert {low a : Nat} {v : Byte} {m : Memory} (h : Memory.wfFrom low m = true) (hlow : low ≤ a)
    (ha : a < 65536) (hv : v ≠ Config.unlistedByte) : Memory.wfFrom low ((m.remove a).insert a v) = true := by
  induction m generalizing low with
  | nil => simp [Memory.remove, Memory.insert, Memory.wfFrom, hlow, ha, hv]
  | cons c rest ih =>
    obtain ⟨k, w⟩ := c
    simp only [Memory.wfFrom, Bool.and_eq_true, decide_eq_true_eq] at h
    by_cases hk : k = a
    · simp only [Memory.remove, hk, if_true]
      exact ih (Memory.wfFrom_mono (Nat.le_succ_of_le h.1.1.1) h.2) hlow
    · by_cases hlt : a < k
      · simp only [Memory.remove, hk, if_false, Memory.insert, hlt, if_true, Memory.wfFrom, Bool.and_eq_true,
          decide_eq_true_eq]
        exact ⟨⟨⟨hlow, ha⟩, by simpa using hv⟩, ⟨⟨hlt, h.1.1.2⟩, h.1.2⟩, Memory.wfFrom_remove a h.2⟩
      · simp only [Memory.remove, hk, if_false, Memory.insert, hlt, Memory.wfFrom, Bool.and_eq_true, decide_eq_true_eq]
        exact ⟨h.1, ih h.2 (by omega)⟩

/-- A write keeps the canonical form. -/
theorem Memory.wf_write {m : Memory} (a : Addr) (v : Byte) (h : m.wf = true) : (m.write a v).wf = true := by
  unfold Memory.write
  split
  · exact Memory.wfFrom_remove _ h
  · next hv => exact Memory.wfFrom_insert h (Nat.zero_le _) a.isLt hv

/-- Writing bytes in a row keeps the canonical form. -/
theorem Memory.wf_writeBytes (bytes : List Byte) (m : Memory) (a : Addr) (h : m.wf = true) :
    (m.writeBytes a bytes).wf = true := by
  induction bytes generalizing m a with
  | nil => exact h
  | cons v rest ih => exact ih _ _ (Memory.wf_write a v h)

/-- The memory of the reset state is in canonical form. -/
theorem reset_mem_wf : State.reset.mem.wf = true := rfl

/-- Below the bound of a canonical list every address is unlisted. -/
theorem Memory.find_below {low : Nat} {m : Memory} (h : Memory.wfFrom low m = true) {a : Nat} (ha : a < low) :
    m.find a = Config.unlistedByte := by
  induction m generalizing low with
  | nil => rfl
  | cons c rest ih =>
    obtain ⟨k, v⟩ := c
    simp only [Memory.wfFrom, Bool.and_eq_true, decide_eq_true_eq] at h
    have hk : k ≠ a := by omega
    simp only [Memory.find, hk, if_false]
    exact ih h.2 (by omega)

end Sys2Proof.Machine
end

