-- ==== Sys2Proof/Laws/State.lean ====
section
/-! SUPPORT. One lemma per field per update of the state, true by rfl, and the projections of the named updates over them. -/

namespace Sys2Proof.Machine

@[simp] theorem State.setA_a (s : State) (v : Byte) : (s.setA v).a = v := rfl
@[simp] theorem State.setA_x (s : State) (v : Byte) : (s.setA v).x = s.x := rfl
@[simp] theorem State.setA_y (s : State) (v : Byte) : (s.setA v).y = s.y := rfl
@[simp] theorem State.setA_sp (s : State) (v : Byte) : (s.setA v).sp = s.sp := rfl
@[simp] theorem State.setA_p (s : State) (v : Byte) : (s.setA v).p = s.p := rfl
@[simp] theorem State.setA_pc (s : State) (v : Byte) : (s.setA v).pc = s.pc := rfl
@[simp] theorem State.setA_mem (s : State) (v : Byte) : (s.setA v).mem = s.mem := rfl

@[simp] theorem State.setX_a (s : State) (v : Byte) : (s.setX v).a = s.a := rfl
@[simp] theorem State.setX_x (s : State) (v : Byte) : (s.setX v).x = v := rfl
@[simp] theorem State.setX_y (s : State) (v : Byte) : (s.setX v).y = s.y := rfl
@[simp] theorem State.setX_sp (s : State) (v : Byte) : (s.setX v).sp = s.sp := rfl
@[simp] theorem State.setX_p (s : State) (v : Byte) : (s.setX v).p = s.p := rfl
@[simp] theorem State.setX_pc (s : State) (v : Byte) : (s.setX v).pc = s.pc := rfl
@[simp] theorem State.setX_mem (s : State) (v : Byte) : (s.setX v).mem = s.mem := rfl

@[simp] theorem State.setY_a (s : State) (v : Byte) : (s.setY v).a = s.a := rfl
@[simp] theorem State.setY_x (s : State) (v : Byte) : (s.setY v).x = s.x := rfl
@[simp] theorem State.setY_y (s : State) (v : Byte) : (s.setY v).y = v := rfl
@[simp] theorem State.setY_sp (s : State) (v : Byte) : (s.setY v).sp = s.sp := rfl
@[simp] theorem State.setY_p (s : State) (v : Byte) : (s.setY v).p = s.p := rfl
@[simp] theorem State.setY_pc (s : State) (v : Byte) : (s.setY v).pc = s.pc := rfl
@[simp] theorem State.setY_mem (s : State) (v : Byte) : (s.setY v).mem = s.mem := rfl

@[simp] theorem State.setSp_a (s : State) (v : Byte) : (s.setSp v).a = s.a := rfl
@[simp] theorem State.setSp_x (s : State) (v : Byte) : (s.setSp v).x = s.x := rfl
@[simp] theorem State.setSp_y (s : State) (v : Byte) : (s.setSp v).y = s.y := rfl
@[simp] theorem State.setSp_sp (s : State) (v : Byte) : (s.setSp v).sp = v := rfl
@[simp] theorem State.setSp_p (s : State) (v : Byte) : (s.setSp v).p = s.p := rfl
@[simp] theorem State.setSp_pc (s : State) (v : Byte) : (s.setSp v).pc = s.pc := rfl
@[simp] theorem State.setSp_mem (s : State) (v : Byte) : (s.setSp v).mem = s.mem := rfl

@[simp] theorem State.setP_a (s : State) (v : Byte) : (s.setP v).a = s.a := rfl
@[simp] theorem State.setP_x (s : State) (v : Byte) : (s.setP v).x = s.x := rfl
@[simp] theorem State.setP_y (s : State) (v : Byte) : (s.setP v).y = s.y := rfl
@[simp] theorem State.setP_sp (s : State) (v : Byte) : (s.setP v).sp = s.sp := rfl
@[simp] theorem State.setP_p (s : State) (v : Byte) : (s.setP v).p = v := rfl
@[simp] theorem State.setP_pc (s : State) (v : Byte) : (s.setP v).pc = s.pc := rfl
@[simp] theorem State.setP_mem (s : State) (v : Byte) : (s.setP v).mem = s.mem := rfl

@[simp] theorem State.setPc_a (s : State) (v : Addr) : (s.setPc v).a = s.a := rfl
@[simp] theorem State.setPc_x (s : State) (v : Addr) : (s.setPc v).x = s.x := rfl
@[simp] theorem State.setPc_y (s : State) (v : Addr) : (s.setPc v).y = s.y := rfl
@[simp] theorem State.setPc_sp (s : State) (v : Addr) : (s.setPc v).sp = s.sp := rfl
@[simp] theorem State.setPc_p (s : State) (v : Addr) : (s.setPc v).p = s.p := rfl
@[simp] theorem State.setPc_pc (s : State) (v : Addr) : (s.setPc v).pc = v := rfl
@[simp] theorem State.setPc_mem (s : State) (v : Addr) : (s.setPc v).mem = s.mem := rfl

@[simp] theorem State.setMem_a (s : State) (v : Memory) : (s.setMem v).a = s.a := rfl
@[simp] theorem State.setMem_x (s : State) (v : Memory) : (s.setMem v).x = s.x := rfl
@[simp] theorem State.setMem_y (s : State) (v : Memory) : (s.setMem v).y = s.y := rfl
@[simp] theorem State.setMem_sp (s : State) (v : Memory) : (s.setMem v).sp = s.sp := rfl
@[simp] theorem State.setMem_p (s : State) (v : Memory) : (s.setMem v).p = s.p := rfl
@[simp] theorem State.setMem_pc (s : State) (v : Memory) : (s.setMem v).pc = s.pc := rfl
@[simp] theorem State.setMem_mem (s : State) (v : Memory) : (s.setMem v).mem = v := rfl

@[simp] theorem State.putFlag_a (s : State) (f : Flag) (on : Bool) : (s.putFlag f on).a = s.a := rfl
@[simp] theorem State.putFlag_x (s : State) (f : Flag) (on : Bool) : (s.putFlag f on).x = s.x := rfl
@[simp] theorem State.putFlag_y (s : State) (f : Flag) (on : Bool) : (s.putFlag f on).y = s.y := rfl
@[simp] theorem State.putFlag_sp (s : State) (f : Flag) (on : Bool) : (s.putFlag f on).sp = s.sp := rfl
@[simp] theorem State.putFlag_p (s : State) (f : Flag) (on : Bool) : (s.putFlag f on).p = setFlag s.p f on := rfl
@[simp] theorem State.putFlag_pc (s : State) (f : Flag) (on : Bool) : (s.putFlag f on).pc = s.pc := rfl
@[simp] theorem State.putFlag_mem (s : State) (f : Flag) (on : Bool) : (s.putFlag f on).mem = s.mem := rfl

@[simp] theorem State.putZN_a (s : State) (v : Byte) : (s.putZN v).a = s.a := rfl
@[simp] theorem State.putZN_x (s : State) (v : Byte) : (s.putZN v).x = s.x := rfl
@[simp] theorem State.putZN_y (s : State) (v : Byte) : (s.putZN v).y = s.y := rfl
@[simp] theorem State.putZN_sp (s : State) (v : Byte) : (s.putZN v).sp = s.sp := rfl
@[simp] theorem State.putZN_p (s : State) (v : Byte) : (s.putZN v).p = setZN s.p v := rfl
@[simp] theorem State.putZN_pc (s : State) (v : Byte) : (s.putZN v).pc = s.pc := rfl
@[simp] theorem State.putZN_mem (s : State) (v : Byte) : (s.putZN v).mem = s.mem := rfl

@[simp] theorem State.writeByte_a (s : State) (a : Addr) (v : Byte) : (s.writeByte a v).a = s.a := rfl
@[simp] theorem State.writeByte_x (s : State) (a : Addr) (v : Byte) : (s.writeByte a v).x = s.x := rfl
@[simp] theorem State.writeByte_y (s : State) (a : Addr) (v : Byte) : (s.writeByte a v).y = s.y := rfl
@[simp] theorem State.writeByte_sp (s : State) (a : Addr) (v : Byte) : (s.writeByte a v).sp = s.sp := rfl
@[simp] theorem State.writeByte_p (s : State) (a : Addr) (v : Byte) : (s.writeByte a v).p = s.p := rfl
@[simp] theorem State.writeByte_pc (s : State) (a : Addr) (v : Byte) : (s.writeByte a v).pc = s.pc := rfl
@[simp] theorem State.writeByte_mem (s : State) (a : Addr) (v : Byte) : (s.writeByte a v).mem = s.mem.write a v := rfl

@[simp] theorem State.advance_a (s : State) (n : Nat) : (s.advance n).a = s.a := rfl
@[simp] theorem State.advance_x (s : State) (n : Nat) : (s.advance n).x = s.x := rfl
@[simp] theorem State.advance_y (s : State) (n : Nat) : (s.advance n).y = s.y := rfl
@[simp] theorem State.advance_sp (s : State) (n : Nat) : (s.advance n).sp = s.sp := rfl
@[simp] theorem State.advance_p (s : State) (n : Nat) : (s.advance n).p = s.p := rfl
@[simp] theorem State.advance_pc (s : State) (n : Nat) : (s.advance n).pc = s.pc + 1 + BitVec.ofNat 16 n := rfl
@[simp] theorem State.advance_mem (s : State) (n : Nat) : (s.advance n).mem = s.mem := rfl

@[simp] theorem State.push_a (s : State) (v : Byte) : (s.push v).a = s.a := rfl
@[simp] theorem State.push_x (s : State) (v : Byte) : (s.push v).x = s.x := rfl
@[simp] theorem State.push_y (s : State) (v : Byte) : (s.push v).y = s.y := rfl
@[simp] theorem State.push_sp (s : State) (v : Byte) : (s.push v).sp = s.sp - 1 := rfl
@[simp] theorem State.push_p (s : State) (v : Byte) : (s.push v).p = s.p := rfl
@[simp] theorem State.push_pc (s : State) (v : Byte) : (s.push v).pc = s.pc := rfl
@[simp] theorem State.push_mem (s : State) (v : Byte) : (s.push v).mem = s.mem.write (stackAddr s.sp) v := rfl

@[simp] theorem State.pull_a (s : State) : (s.pull).a = s.a := rfl
@[simp] theorem State.pull_x (s : State) : (s.pull).x = s.x := rfl
@[simp] theorem State.pull_y (s : State) : (s.pull).y = s.y := rfl
@[simp] theorem State.pull_sp (s : State) : (s.pull).sp = s.sp + 1 := rfl
@[simp] theorem State.pull_p (s : State) : (s.pull).p = s.p := rfl
@[simp] theorem State.pull_pc (s : State) : (s.pull).pc = s.pc := rfl
@[simp] theorem State.pull_mem (s : State) : (s.pull).mem = s.mem := rfl

/-- Two states with equal fields are equal. -/
theorem State.ext_fields {s t : State} (ha : s.a = t.a) (hx : s.x = t.x) (hy : s.y = t.y) (hsp : s.sp = t.sp) (hp : s.p = t.p)
    (hpc : s.pc = t.pc) (hmem : s.mem = t.mem) : s = t := by
  cases s; cases t; simp_all

/-- Reading is through the memory alone. -/
@[simp] theorem State.readByte_eq (s : State) (a : Addr) : s.readByte a = s.mem.read a := rfl

/-- A word read is two byte reads (R66). -/
@[simp] theorem State.readWord_eq (s : State) (lo hi : Addr) :
    s.readWord lo hi = joinBytes (s.mem.read hi) (s.mem.read lo) := rfl

/-- A zero-page pointer read (R107, R108). -/
@[simp] theorem State.zeroPageWord_eq (s : State) (zp : Byte) :
    s.zeroPageWord zp = joinBytes (s.mem.read (zextAddr (zp + 1))) (s.mem.read (zextAddr zp)) := rfl

/-- A flag is read from P. -/
@[simp] theorem State.flag_eq (s : State) (f : Flag) : s.flag f = getFlag s.p f := rfl

/-- The byte a pull returns (R226). -/
@[simp] theorem State.pulledByte_eq (s : State) : s.pulledByte = s.mem.read (stackAddr (s.sp + 1)) := rfl

/-- The word two pulls return (R229). -/
@[simp] theorem State.pulledWord_eq (s : State) :
    s.pulledWord = joinBytes (s.mem.read (stackAddr (s.sp + 1 + 1))) (s.mem.read (stackAddr (s.sp + 1))) := rfl

end Sys2Proof.Machine
end

