-- ==== Sys2Proof/Laws/Ops.lean ====
section
/-! SUPPORT. One lemma per shared operation that says all it does, and that each keeps the invariant. Later proofs cite these instead
of unfolding the operations. -/

namespace Sys2Proof.Machine

/-- The bytes of a word, joined again (R8). -/
@[simp] theorem joinBytes_hi_lo (w : Addr) : joinBytes (hiByte w) (loByte w) = w := by
  unfold joinBytes hiByte loByte
  exact BitVec.extractLsb'_append_extractLsb'_eq_extractLsb' (by rfl) |>.trans (BitVec.extractLsb'_eq_self)

/-- The low byte of a joined word (R8). -/
@[simp] theorem loByte_joinBytes (h l : Byte) : loByte (joinBytes h l) = l := by
  unfold loByte joinBytes
  exact BitVec.extractLsb'_append_eq_right

/-- The high byte of a joined word (R8). -/
@[simp] theorem hiByte_joinBytes (h l : Byte) : hiByte (joinBytes h l) = h := by
  unfold hiByte joinBytes
  exact BitVec.extractLsb'_append_eq_left

/-- Two stack pointers designate different addresses when they differ (R34). -/
theorem stackAddr_injective {p q : Byte} (h : stackAddr p = stackAddr q) : p = q := by
  unfold stackAddr zextAddr at h
  bv_omega

/-- Every stack address lies in page 1 (R34, R71). -/
theorem stackAddr_range (sp : Byte) : 256 ≤ (stackAddr sp).toNat ∧ (stackAddr sp).toNat < 512 := by
  unfold stackAddr zextAddr
  have := sp.isLt
  constructor <;> simp <;> omega

/-- Two pushes (R228). -/
theorem State.pushWord_eq (s : State) (w : Addr) :
    s.pushWord w = { s with
      sp := s.sp - 1 - 1
      mem := (s.mem.write (stackAddr s.sp) (hiByte w)).write (stackAddr (s.sp - 1)) (loByte w) } := rfl

/-- Taking the interrupt, field by field (R272). -/
theorem State.takeInterrupt_eq (s : State) (r : Addr) :
    s.takeInterrupt r = { s with
      sp := s.sp - 1 - 1 - 1
      p := setFlag s.p .i true
      pc := ((s.pushWord r).push (pushedStatus s.p)).readWord irqVector (irqVector + 1)
      mem := ((s.mem.write (stackAddr s.sp) (hiByte r)).write (stackAddr (s.sp - 1)) (loByte r)).write
        (stackAddr (s.sp - 1 - 1)) (pushedStatus s.p) } := by
  simp only [State.takeInterrupt, State.setPc, State.putFlag, State.setP, State.push, State.pushWord, State.writeByte,
    State.setMem, State.setSp]

/-- Returning from an interrupt, field by field (R273). -/
theorem State.returnFromInterrupt_eq (s : State) :
    s.returnFromInterrupt = { s with
      sp := s.sp + 1 + 1 + 1
      p := pulledStatus (s.readByte (stackAddr (s.sp + 1)))
      pc := joinBytes (s.readByte (stackAddr (s.sp + 1 + 1 + 1))) (s.readByte (stackAddr (s.sp + 1 + 1))) } := rfl

/-- The reset command changes PC alone (R300). -/
theorem State.resetCommand_eq (s : State) :
    s.resetCommand = { s with pc := joinBytes (s.readByte 0xFFFD) (s.readByte 0xFFFC) } := rfl

/-! ## The access classes -/

/-- What a read-class operation answers. -/
theorem readClass_next {m : MemOperand} {h : Byte → State → State} {s t : State} (e : readClass m h s = .next t) :
    t = h (operandValue m s) (s.advance m.count) := by simpa [readClass, eq_comm] using e

/-- What a store-class operation answers: memory at the effective address and PC, nothing else. -/
theorem storeClass_next {m : MemOperand} {v : Byte} {s t : State} (e : storeClass m v s = .next t) :
    t = { s with pc := s.pc + 1 + BitVec.ofNat 16 m.count, mem := s.mem.write (effAddr m s) v } := by
  simp only [storeClass, Host.Outcome.next.injEq] at e
  exact e.symm

/-- What a read-modify-write operation answers. -/
theorem modifyClass_next {m : MemOperand} {f : Byte → Byte} {h : Byte → Byte → State → State} {s t : State}
    (e : modifyClass m f h s = .next t) :
    t = h (s.readByte (effAddr m s)) (f (s.readByte (effAddr m s)))
      ((s.advance m.count).writeByte (effAddr m s) (f (s.readByte (effAddr m s)))) := by
  simpa [modifyClass, eq_comm] using e

/-- What the Accumulator form of a shift answers. -/
theorem accumulatorClass_next {f : Byte → Byte} {h : Byte → Byte → State → State} {s t : State}
    (e : accumulatorClass f h s = .next t) : t = h s.a (f s.a) ((s.advance 0).setA (f s.a)) := by
  simpa [accumulatorClass, eq_comm] using e

/-- What an Implied instruction answers. -/
theorem impliedClass_next {h : State → State} {s t : State} (e : impliedClass h s = .next t) : t = h (s.advance 0) := by
  simpa [impliedClass, eq_comm] using e

/-- What an instruction with a target answers. -/
theorem targetClass_next {m : MemOperand} {h : Addr → State → State} {s t : State} (e : targetClass m h s = .next t) :
    t = h (effAddr m s) (s.advance m.count) := by simpa [targetClass, eq_comm] using e

/-- What a branch answers: PC alone changes (R210). -/
theorem branch_next {taken : Bool} {off : Byte} {s t : State} (e : branch taken off s = .next t) :
    t = { s with pc := if taken then s.pc + 2 + sextAddr off else s.pc + 1 + 1 } := by
  have := targetClass_next e
  cases taken <;> exact this

/-! ## The invariant through the operations -/

/-- A write keeps the invariant. -/
theorem State.Inv_writeByte {s : State} (a : Addr) (v : Byte) (h : s.Inv) : (s.writeByte a v).Inv :=
  ⟨h.1, Memory.wf_write a v h.2⟩

/-- A push keeps the invariant. -/
theorem State.Inv_push {s : State} (v : Byte) (h : s.Inv) : (s.push v).Inv := ⟨h.1, Memory.wf_write _ v h.2⟩

/-- A change of P that leaves bit 5 keeps the invariant. -/
theorem State.Inv_setP {s : State} {q : Byte} (hq : q[5] = s.p[5]) (h : s.Inv) : (s.setP q).Inv :=
  ⟨hq.trans h.1, h.2⟩

/-- Taking the interrupt keeps the invariant. -/
theorem State.Inv_takeInterrupt {s : State} (r : Addr) (h : s.Inv) : (s.takeInterrupt r).Inv :=
  State.takeInterrupt_eq s r ▸ ⟨(bit5_setFlag _ _ _).trans h.1,
    Memory.wf_write _ _ (Memory.wf_write _ _ (Memory.wf_write _ _ h.2))⟩

/-- Returning from an interrupt keeps the invariant. -/
theorem State.Inv_returnFromInterrupt {s : State} (h : s.Inv) : s.returnFromInterrupt.Inv :=
  ⟨by rw [State.returnFromInterrupt_eq]; exact bit5_pulledStatus _, h.2⟩

/-- Placing an instruction for the next fetch keeps the invariant. -/
theorem State.Inv_withFetchWord {s : State} (nbits w : Nat) (h : s.Inv) : (s.withFetchWord nbits w).Inv :=
  ⟨h.1, Memory.wf_writeBytes _ _ _ h.2⟩

end Sys2Proof.Machine
end

