-- ==== Sys2Proof/Laws/PerInstr.lean ====
section
/-! SUPPORT. Facts of each instruction as syntax, one lemma per constructor: family EncodingShape, that an encoding is one opcode byte and
the operand bytes its mode counts (30_encoding.md R90, R94), with at most two of them. -/

namespace Sys2Proof.Laws

/-- What the family says of an instruction. -/
def EncodingShape.Statement (i : Instr) : Prop :=
  (encode i).length = i.length ∧ (encode i).head? = some i.desc.opcode ∧ i.operand.count ≤ 2

theorem EncodingShape.ldaImm (v : Byte) : EncodingShape.Statement (.ldaImm v) := ⟨rfl, rfl, Nat.le_of_ble_eq_true rfl⟩
theorem EncodingShape.ldaZp (b : Byte) : EncodingShape.Statement (.ldaZp b) := ⟨rfl, rfl, Nat.le_of_ble_eq_true rfl⟩
theorem EncodingShape.ldaZpx (b : Byte) : EncodingShape.Statement (.ldaZpx b) := ⟨rfl, rfl, Nat.le_of_ble_eq_true rfl⟩
theorem EncodingShape.ldaAbs (a : Addr) : EncodingShape.Statement (.ldaAbs a) := ⟨rfl, rfl, Nat.le_of_ble_eq_true rfl⟩
theorem EncodingShape.ldaAbsx (a : Addr) : EncodingShape.Statement (.ldaAbsx a) := ⟨rfl, rfl, Nat.le_of_ble_eq_true rfl⟩
theorem EncodingShape.ldaAbsy (a : Addr) : EncodingShape.Statement (.ldaAbsy a) := ⟨rfl, rfl, Nat.le_of_ble_eq_true rfl⟩
theorem EncodingShape.ldaIzx (b : Byte) : EncodingShape.Statement (.ldaIzx b) := ⟨rfl, rfl, Nat.le_of_ble_eq_true rfl⟩
theorem EncodingShape.ldaIzy (b : Byte) : EncodingShape.Statement (.ldaIzy b) := ⟨rfl, rfl, Nat.le_of_ble_eq_true rfl⟩
theorem EncodingShape.ldxImm (v : Byte) : EncodingShape.Statement (.ldxImm v) := ⟨rfl, rfl, Nat.le_of_ble_eq_true rfl⟩
theorem EncodingShape.ldxZp (b : Byte) : EncodingShape.Statement (.ldxZp b) := ⟨rfl, rfl, Nat.le_of_ble_eq_true rfl⟩
theorem EncodingShape.ldxZpy (b : Byte) : EncodingShape.Statement (.ldxZpy b) := ⟨rfl, rfl, Nat.le_of_ble_eq_true rfl⟩
theorem EncodingShape.ldxAbs (a : Addr) : EncodingShape.Statement (.ldxAbs a) := ⟨rfl, rfl, Nat.le_of_ble_eq_true rfl⟩
theorem EncodingShape.ldxAbsy (a : Addr) : EncodingShape.Statement (.ldxAbsy a) := ⟨rfl, rfl, Nat.le_of_ble_eq_true rfl⟩
theorem EncodingShape.ldyImm (v : Byte) : EncodingShape.Statement (.ldyImm v) := ⟨rfl, rfl, Nat.le_of_ble_eq_true rfl⟩
theorem EncodingShape.ldyZp (b : Byte) : EncodingShape.Statement (.ldyZp b) := ⟨rfl, rfl, Nat.le_of_ble_eq_true rfl⟩
theorem EncodingShape.ldyZpx (b : Byte) : EncodingShape.Statement (.ldyZpx b) := ⟨rfl, rfl, Nat.le_of_ble_eq_true rfl⟩
theorem EncodingShape.ldyAbs (a : Addr) : EncodingShape.Statement (.ldyAbs a) := ⟨rfl, rfl, Nat.le_of_ble_eq_true rfl⟩
theorem EncodingShape.ldyAbsx (a : Addr) : EncodingShape.Statement (.ldyAbsx a) := ⟨rfl, rfl, Nat.le_of_ble_eq_true rfl⟩
theorem EncodingShape.staZp (b : Byte) : EncodingShape.Statement (.staZp b) := ⟨rfl, rfl, Nat.le_of_ble_eq_true rfl⟩
theorem EncodingShape.staZpx (b : Byte) : EncodingShape.Statement (.staZpx b) := ⟨rfl, rfl, Nat.le_of_ble_eq_true rfl⟩
theorem EncodingShape.staAbs (a : Addr) : EncodingShape.Statement (.staAbs a) := ⟨rfl, rfl, Nat.le_of_ble_eq_true rfl⟩
theorem EncodingShape.staAbsx (a : Addr) : EncodingShape.Statement (.staAbsx a) := ⟨rfl, rfl, Nat.le_of_ble_eq_true rfl⟩
theorem EncodingShape.staAbsy (a : Addr) : EncodingShape.Statement (.staAbsy a) := ⟨rfl, rfl, Nat.le_of_ble_eq_true rfl⟩
theorem EncodingShape.staIzx (b : Byte) : EncodingShape.Statement (.staIzx b) := ⟨rfl, rfl, Nat.le_of_ble_eq_true rfl⟩
theorem EncodingShape.staIzy (b : Byte) : EncodingShape.Statement (.staIzy b) := ⟨rfl, rfl, Nat.le_of_ble_eq_true rfl⟩
theorem EncodingShape.stxZp (b : Byte) : EncodingShape.Statement (.stxZp b) := ⟨rfl, rfl, Nat.le_of_ble_eq_true rfl⟩
theorem EncodingShape.stxZpy (b : Byte) : EncodingShape.Statement (.stxZpy b) := ⟨rfl, rfl, Nat.le_of_ble_eq_true rfl⟩
theorem EncodingShape.stxAbs (a : Addr) : EncodingShape.Statement (.stxAbs a) := ⟨rfl, rfl, Nat.le_of_ble_eq_true rfl⟩
theorem EncodingShape.styZp (b : Byte) : EncodingShape.Statement (.styZp b) := ⟨rfl, rfl, Nat.le_of_ble_eq_true rfl⟩
theorem EncodingShape.styZpx (b : Byte) : EncodingShape.Statement (.styZpx b) := ⟨rfl, rfl, Nat.le_of_ble_eq_true rfl⟩
theorem EncodingShape.styAbs (a : Addr) : EncodingShape.Statement (.styAbs a) := ⟨rfl, rfl, Nat.le_of_ble_eq_true rfl⟩
theorem EncodingShape.adcImm (v : Byte) : EncodingShape.Statement (.adcImm v) := ⟨rfl, rfl, Nat.le_of_ble_eq_true rfl⟩
theorem EncodingShape.adcZp (b : Byte) : EncodingShape.Statement (.adcZp b) := ⟨rfl, rfl, Nat.le_of_ble_eq_true rfl⟩
theorem EncodingShape.adcZpx (b : Byte) : EncodingShape.Statement (.adcZpx b) := ⟨rfl, rfl, Nat.le_of_ble_eq_true rfl⟩
theorem EncodingShape.adcAbs (a : Addr) : EncodingShape.Statement (.adcAbs a) := ⟨rfl, rfl, Nat.le_of_ble_eq_true rfl⟩
theorem EncodingShape.adcAbsx (a : Addr) : EncodingShape.Statement (.adcAbsx a) := ⟨rfl, rfl, Nat.le_of_ble_eq_true rfl⟩
theorem EncodingShape.adcAbsy (a : Addr) : EncodingShape.Statement (.adcAbsy a) := ⟨rfl, rfl, Nat.le_of_ble_eq_true rfl⟩
theorem EncodingShape.adcIzx (b : Byte) : EncodingShape.Statement (.adcIzx b) := ⟨rfl, rfl, Nat.le_of_ble_eq_true rfl⟩
theorem EncodingShape.adcIzy (b : Byte) : EncodingShape.Statement (.adcIzy b) := ⟨rfl, rfl, Nat.le_of_ble_eq_true rfl⟩
theorem EncodingShape.sbcImm (v : Byte) : EncodingShape.Statement (.sbcImm v) := ⟨rfl, rfl, Nat.le_of_ble_eq_true rfl⟩
theorem EncodingShape.sbcZp (b : Byte) : EncodingShape.Statement (.sbcZp b) := ⟨rfl, rfl, Nat.le_of_ble_eq_true rfl⟩
theorem EncodingShape.sbcZpx (b : Byte) : EncodingShape.Statement (.sbcZpx b) := ⟨rfl, rfl, Nat.le_of_ble_eq_true rfl⟩
theorem EncodingShape.sbcAbs (a : Addr) : EncodingShape.Statement (.sbcAbs a) := ⟨rfl, rfl, Nat.le_of_ble_eq_true rfl⟩
theorem EncodingShape.sbcAbsx (a : Addr) : EncodingShape.Statement (.sbcAbsx a) := ⟨rfl, rfl, Nat.le_of_ble_eq_true rfl⟩
theorem EncodingShape.sbcAbsy (a : Addr) : EncodingShape.Statement (.sbcAbsy a) := ⟨rfl, rfl, Nat.le_of_ble_eq_true rfl⟩
theorem EncodingShape.sbcIzx (b : Byte) : EncodingShape.Statement (.sbcIzx b) := ⟨rfl, rfl, Nat.le_of_ble_eq_true rfl⟩
theorem EncodingShape.sbcIzy (b : Byte) : EncodingShape.Statement (.sbcIzy b) := ⟨rfl, rfl, Nat.le_of_ble_eq_true rfl⟩
theorem EncodingShape.andImm (v : Byte) : EncodingShape.Statement (.andImm v) := ⟨rfl, rfl, Nat.le_of_ble_eq_true rfl⟩
theorem EncodingShape.andZp (b : Byte) : EncodingShape.Statement (.andZp b) := ⟨rfl, rfl, Nat.le_of_ble_eq_true rfl⟩
theorem EncodingShape.andZpx (b : Byte) : EncodingShape.Statement (.andZpx b) := ⟨rfl, rfl, Nat.le_of_ble_eq_true rfl⟩
theorem EncodingShape.andAbs (a : Addr) : EncodingShape.Statement (.andAbs a) := ⟨rfl, rfl, Nat.le_of_ble_eq_true rfl⟩
theorem EncodingShape.andAbsx (a : Addr) : EncodingShape.Statement (.andAbsx a) := ⟨rfl, rfl, Nat.le_of_ble_eq_true rfl⟩
theorem EncodingShape.andAbsy (a : Addr) : EncodingShape.Statement (.andAbsy a) := ⟨rfl, rfl, Nat.le_of_ble_eq_true rfl⟩
theorem EncodingShape.andIzx (b : Byte) : EncodingShape.Statement (.andIzx b) := ⟨rfl, rfl, Nat.le_of_ble_eq_true rfl⟩
theorem EncodingShape.andIzy (b : Byte) : EncodingShape.Statement (.andIzy b) := ⟨rfl, rfl, Nat.le_of_ble_eq_true rfl⟩
theorem EncodingShape.oraImm (v : Byte) : EncodingShape.Statement (.oraImm v) := ⟨rfl, rfl, Nat.le_of_ble_eq_true rfl⟩
theorem EncodingShape.oraZp (b : Byte) : EncodingShape.Statement (.oraZp b) := ⟨rfl, rfl, Nat.le_of_ble_eq_true rfl⟩
theorem EncodingShape.oraZpx (b : Byte) : EncodingShape.Statement (.oraZpx b) := ⟨rfl, rfl, Nat.le_of_ble_eq_true rfl⟩
theorem EncodingShape.oraAbs (a : Addr) : EncodingShape.Statement (.oraAbs a) := ⟨rfl, rfl, Nat.le_of_ble_eq_true rfl⟩
theorem EncodingShape.oraAbsx (a : Addr) : EncodingShape.Statement (.oraAbsx a) := ⟨rfl, rfl, Nat.le_of_ble_eq_true rfl⟩
theorem EncodingShape.oraAbsy (a : Addr) : EncodingShape.Statement (.oraAbsy a) := ⟨rfl, rfl, Nat.le_of_ble_eq_true rfl⟩
theorem EncodingShape.oraIzx (b : Byte) : EncodingShape.Statement (.oraIzx b) := ⟨rfl, rfl, Nat.le_of_ble_eq_true rfl⟩
theorem EncodingShape.oraIzy (b : Byte) : EncodingShape.Statement (.oraIzy b) := ⟨rfl, rfl, Nat.le_of_ble_eq_true rfl⟩
theorem EncodingShape.eorImm (v : Byte) : EncodingShape.Statement (.eorImm v) := ⟨rfl, rfl, Nat.le_of_ble_eq_true rfl⟩
theorem EncodingShape.eorZp (b : Byte) : EncodingShape.Statement (.eorZp b) := ⟨rfl, rfl, Nat.le_of_ble_eq_true rfl⟩
theorem EncodingShape.eorZpx (b : Byte) : EncodingShape.Statement (.eorZpx b) := ⟨rfl, rfl, Nat.le_of_ble_eq_true rfl⟩
theorem EncodingShape.eorAbs (a : Addr) : EncodingShape.Statement (.eorAbs a) := ⟨rfl, rfl, Nat.le_of_ble_eq_true rfl⟩
theorem EncodingShape.eorAbsx (a : Addr) : EncodingShape.Statement (.eorAbsx a) := ⟨rfl, rfl, Nat.le_of_ble_eq_true rfl⟩
theorem EncodingShape.eorAbsy (a : Addr) : EncodingShape.Statement (.eorAbsy a) := ⟨rfl, rfl, Nat.le_of_ble_eq_true rfl⟩
theorem EncodingShape.eorIzx (b : Byte) : EncodingShape.Statement (.eorIzx b) := ⟨rfl, rfl, Nat.le_of_ble_eq_true rfl⟩
theorem EncodingShape.eorIzy (b : Byte) : EncodingShape.Statement (.eorIzy b) := ⟨rfl, rfl, Nat.le_of_ble_eq_true rfl⟩
theorem EncodingShape.bitZp (b : Byte) : EncodingShape.Statement (.bitZp b) := ⟨rfl, rfl, Nat.le_of_ble_eq_true rfl⟩
theorem EncodingShape.bitAbs (a : Addr) : EncodingShape.Statement (.bitAbs a) := ⟨rfl, rfl, Nat.le_of_ble_eq_true rfl⟩
theorem EncodingShape.aslZp (b : Byte) : EncodingShape.Statement (.aslZp b) := ⟨rfl, rfl, Nat.le_of_ble_eq_true rfl⟩
theorem EncodingShape.aslZpx (b : Byte) : EncodingShape.Statement (.aslZpx b) := ⟨rfl, rfl, Nat.le_of_ble_eq_true rfl⟩
theorem EncodingShape.aslAbs (a : Addr) : EncodingShape.Statement (.aslAbs a) := ⟨rfl, rfl, Nat.le_of_ble_eq_true rfl⟩
theorem EncodingShape.aslAbsx (a : Addr) : EncodingShape.Statement (.aslAbsx a) := ⟨rfl, rfl, Nat.le_of_ble_eq_true rfl⟩
theorem EncodingShape.aslAcc : EncodingShape.Statement (.aslAcc) := ⟨rfl, rfl, Nat.le_of_ble_eq_true rfl⟩
theorem EncodingShape.lsrZp (b : Byte) : EncodingShape.Statement (.lsrZp b) := ⟨rfl, rfl, Nat.le_of_ble_eq_true rfl⟩
theorem EncodingShape.lsrZpx (b : Byte) : EncodingShape.Statement (.lsrZpx b) := ⟨rfl, rfl, Nat.le_of_ble_eq_true rfl⟩
theorem EncodingShape.lsrAbs (a : Addr) : EncodingShape.Statement (.lsrAbs a) := ⟨rfl, rfl, Nat.le_of_ble_eq_true rfl⟩
theorem EncodingShape.lsrAbsx (a : Addr) : EncodingShape.Statement (.lsrAbsx a) := ⟨rfl, rfl, Nat.le_of_ble_eq_true rfl⟩
theorem EncodingShape.lsrAcc : EncodingShape.Statement (.lsrAcc) := ⟨rfl, rfl, Nat.le_of_ble_eq_true rfl⟩
theorem EncodingShape.rolZp (b : Byte) : EncodingShape.Statement (.rolZp b) := ⟨rfl, rfl, Nat.le_of_ble_eq_true rfl⟩
theorem EncodingShape.rolZpx (b : Byte) : EncodingShape.Statement (.rolZpx b) := ⟨rfl, rfl, Nat.le_of_ble_eq_true rfl⟩
theorem EncodingShape.rolAbs (a : Addr) : EncodingShape.Statement (.rolAbs a) := ⟨rfl, rfl, Nat.le_of_ble_eq_true rfl⟩
theorem EncodingShape.rolAbsx (a : Addr) : EncodingShape.Statement (.rolAbsx a) := ⟨rfl, rfl, Nat.le_of_ble_eq_true rfl⟩
theorem EncodingShape.rolAcc : EncodingShape.Statement (.rolAcc) := ⟨rfl, rfl, Nat.le_of_ble_eq_true rfl⟩
theorem EncodingShape.rorZp (b : Byte) : EncodingShape.Statement (.rorZp b) := ⟨rfl, rfl, Nat.le_of_ble_eq_true rfl⟩
theorem EncodingShape.rorZpx (b : Byte) : EncodingShape.Statement (.rorZpx b) := ⟨rfl, rfl, Nat.le_of_ble_eq_true rfl⟩
theorem EncodingShape.rorAbs (a : Addr) : EncodingShape.Statement (.rorAbs a) := ⟨rfl, rfl, Nat.le_of_ble_eq_true rfl⟩
theorem EncodingShape.rorAbsx (a : Addr) : EncodingShape.Statement (.rorAbsx a) := ⟨rfl, rfl, Nat.le_of_ble_eq_true rfl⟩
theorem EncodingShape.rorAcc : EncodingShape.Statement (.rorAcc) := ⟨rfl, rfl, Nat.le_of_ble_eq_true rfl⟩
theorem EncodingShape.cmpImm (v : Byte) : EncodingShape.Statement (.cmpImm v) := ⟨rfl, rfl, Nat.le_of_ble_eq_true rfl⟩
theorem EncodingShape.cmpZp (b : Byte) : EncodingShape.Statement (.cmpZp b) := ⟨rfl, rfl, Nat.le_of_ble_eq_true rfl⟩
theorem EncodingShape.cmpZpx (b : Byte) : EncodingShape.Statement (.cmpZpx b) := ⟨rfl, rfl, Nat.le_of_ble_eq_true rfl⟩
theorem EncodingShape.cmpAbs (a : Addr) : EncodingShape.Statement (.cmpAbs a) := ⟨rfl, rfl, Nat.le_of_ble_eq_true rfl⟩
theorem EncodingShape.cmpAbsx (a : Addr) : EncodingShape.Statement (.cmpAbsx a) := ⟨rfl, rfl, Nat.le_of_ble_eq_true rfl⟩
theorem EncodingShape.cmpAbsy (a : Addr) : EncodingShape.Statement (.cmpAbsy a) := ⟨rfl, rfl, Nat.le_of_ble_eq_true rfl⟩
theorem EncodingShape.cmpIzx (b : Byte) : EncodingShape.Statement (.cmpIzx b) := ⟨rfl, rfl, Nat.le_of_ble_eq_true rfl⟩
theorem EncodingShape.cmpIzy (b : Byte) : EncodingShape.Statement (.cmpIzy b) := ⟨rfl, rfl, Nat.le_of_ble_eq_true rfl⟩
theorem EncodingShape.cpxImm (v : Byte) : EncodingShape.Statement (.cpxImm v) := ⟨rfl, rfl, Nat.le_of_ble_eq_true rfl⟩
theorem EncodingShape.cpxZp (b : Byte) : EncodingShape.Statement (.cpxZp b) := ⟨rfl, rfl, Nat.le_of_ble_eq_true rfl⟩
theorem EncodingShape.cpxAbs (a : Addr) : EncodingShape.Statement (.cpxAbs a) := ⟨rfl, rfl, Nat.le_of_ble_eq_true rfl⟩
theorem EncodingShape.cpyImm (v : Byte) : EncodingShape.Statement (.cpyImm v) := ⟨rfl, rfl, Nat.le_of_ble_eq_true rfl⟩
theorem EncodingShape.cpyZp (b : Byte) : EncodingShape.Statement (.cpyZp b) := ⟨rfl, rfl, Nat.le_of_ble_eq_true rfl⟩
theorem EncodingShape.cpyAbs (a : Addr) : EncodingShape.Statement (.cpyAbs a) := ⟨rfl, rfl, Nat.le_of_ble_eq_true rfl⟩
theorem EncodingShape.incZp (b : Byte) : EncodingShape.Statement (.incZp b) := ⟨rfl, rfl, Nat.le_of_ble_eq_true rfl⟩
theorem EncodingShape.incZpx (b : Byte) : EncodingShape.Statement (.incZpx b) := ⟨rfl, rfl, Nat.le_of_ble_eq_true rfl⟩
theorem EncodingShape.incAbs (a : Addr) : EncodingShape.Statement (.incAbs a) := ⟨rfl, rfl, Nat.le_of_ble_eq_true rfl⟩
theorem EncodingShape.incAbsx (a : Addr) : EncodingShape.Statement (.incAbsx a) := ⟨rfl, rfl, Nat.le_of_ble_eq_true rfl⟩
theorem EncodingShape.decZp (b : Byte) : EncodingShape.Statement (.decZp b) := ⟨rfl, rfl, Nat.le_of_ble_eq_true rfl⟩
theorem EncodingShape.decZpx (b : Byte) : EncodingShape.Statement (.decZpx b) := ⟨rfl, rfl, Nat.le_of_ble_eq_true rfl⟩
theorem EncodingShape.decAbs (a : Addr) : EncodingShape.Statement (.decAbs a) := ⟨rfl, rfl, Nat.le_of_ble_eq_true rfl⟩
theorem EncodingShape.decAbsx (a : Addr) : EncodingShape.Statement (.decAbsx a) := ⟨rfl, rfl, Nat.le_of_ble_eq_true rfl⟩
theorem EncodingShape.inx : EncodingShape.Statement (.inx) := ⟨rfl, rfl, Nat.le_of_ble_eq_true rfl⟩
theorem EncodingShape.dex : EncodingShape.Statement (.dex) := ⟨rfl, rfl, Nat.le_of_ble_eq_true rfl⟩
theorem EncodingShape.iny : EncodingShape.Statement (.iny) := ⟨rfl, rfl, Nat.le_of_ble_eq_true rfl⟩
theorem EncodingShape.dey : EncodingShape.Statement (.dey) := ⟨rfl, rfl, Nat.le_of_ble_eq_true rfl⟩
theorem EncodingShape.bcc (off : Byte) : EncodingShape.Statement (.bcc off) := ⟨rfl, rfl, Nat.le_of_ble_eq_true rfl⟩
theorem EncodingShape.bcs (off : Byte) : EncodingShape.Statement (.bcs off) := ⟨rfl, rfl, Nat.le_of_ble_eq_true rfl⟩
theorem EncodingShape.beq (off : Byte) : EncodingShape.Statement (.beq off) := ⟨rfl, rfl, Nat.le_of_ble_eq_true rfl⟩
theorem EncodingShape.bmi (off : Byte) : EncodingShape.Statement (.bmi off) := ⟨rfl, rfl, Nat.le_of_ble_eq_true rfl⟩
theorem EncodingShape.bne (off : Byte) : EncodingShape.Statement (.bne off) := ⟨rfl, rfl, Nat.le_of_ble_eq_true rfl⟩
theorem EncodingShape.bpl (off : Byte) : EncodingShape.Statement (.bpl off) := ⟨rfl, rfl, Nat.le_of_ble_eq_true rfl⟩
theorem EncodingShape.bvc (off : Byte) : EncodingShape.Statement (.bvc off) := ⟨rfl, rfl, Nat.le_of_ble_eq_true rfl⟩
theorem EncodingShape.bvs (off : Byte) : EncodingShape.Statement (.bvs off) := ⟨rfl, rfl, Nat.le_of_ble_eq_true rfl⟩
theorem EncodingShape.jmpAbs (a : Addr) : EncodingShape.Statement (.jmpAbs a) := ⟨rfl, rfl, Nat.le_of_ble_eq_true rfl⟩
theorem EncodingShape.jmpInd (a : Addr) : EncodingShape.Statement (.jmpInd a) := ⟨rfl, rfl, Nat.le_of_ble_eq_true rfl⟩
theorem EncodingShape.jsr (a : Addr) : EncodingShape.Statement (.jsr a) := ⟨rfl, rfl, Nat.le_of_ble_eq_true rfl⟩
theorem EncodingShape.rts : EncodingShape.Statement (.rts) := ⟨rfl, rfl, Nat.le_of_ble_eq_true rfl⟩
theorem EncodingShape.pha : EncodingShape.Statement (.pha) := ⟨rfl, rfl, Nat.le_of_ble_eq_true rfl⟩
theorem EncodingShape.php : EncodingShape.Statement (.php) := ⟨rfl, rfl, Nat.le_of_ble_eq_true rfl⟩
theorem EncodingShape.pla : EncodingShape.Statement (.pla) := ⟨rfl, rfl, Nat.le_of_ble_eq_true rfl⟩
theorem EncodingShape.plp : EncodingShape.Statement (.plp) := ⟨rfl, rfl, Nat.le_of_ble_eq_true rfl⟩
theorem EncodingShape.brk : EncodingShape.Statement (.brk) := ⟨rfl, rfl, Nat.le_of_ble_eq_true rfl⟩
theorem EncodingShape.rti : EncodingShape.Statement (.rti) := ⟨rfl, rfl, Nat.le_of_ble_eq_true rfl⟩
theorem EncodingShape.tax : EncodingShape.Statement (.tax) := ⟨rfl, rfl, Nat.le_of_ble_eq_true rfl⟩
theorem EncodingShape.tay : EncodingShape.Statement (.tay) := ⟨rfl, rfl, Nat.le_of_ble_eq_true rfl⟩
theorem EncodingShape.tsx : EncodingShape.Statement (.tsx) := ⟨rfl, rfl, Nat.le_of_ble_eq_true rfl⟩
theorem EncodingShape.txa : EncodingShape.Statement (.txa) := ⟨rfl, rfl, Nat.le_of_ble_eq_true rfl⟩
theorem EncodingShape.txs : EncodingShape.Statement (.txs) := ⟨rfl, rfl, Nat.le_of_ble_eq_true rfl⟩
theorem EncodingShape.tya : EncodingShape.Statement (.tya) := ⟨rfl, rfl, Nat.le_of_ble_eq_true rfl⟩
theorem EncodingShape.clc : EncodingShape.Statement (.clc) := ⟨rfl, rfl, Nat.le_of_ble_eq_true rfl⟩
theorem EncodingShape.sec : EncodingShape.Statement (.sec) := ⟨rfl, rfl, Nat.le_of_ble_eq_true rfl⟩
theorem EncodingShape.cli : EncodingShape.Statement (.cli) := ⟨rfl, rfl, Nat.le_of_ble_eq_true rfl⟩
theorem EncodingShape.sei : EncodingShape.Statement (.sei) := ⟨rfl, rfl, Nat.le_of_ble_eq_true rfl⟩
theorem EncodingShape.clv : EncodingShape.Statement (.clv) := ⟨rfl, rfl, Nat.le_of_ble_eq_true rfl⟩
theorem EncodingShape.cld : EncodingShape.Statement (.cld) := ⟨rfl, rfl, Nat.le_of_ble_eq_true rfl⟩
theorem EncodingShape.sed : EncodingShape.Statement (.sed) := ⟨rfl, rfl, Nat.le_of_ble_eq_true rfl⟩
theorem EncodingShape.nop : EncodingShape.Statement (.nop) := ⟨rfl, rfl, Nat.le_of_ble_eq_true rfl⟩
theorem EncodingShape.laxZp (b : Byte) : EncodingShape.Statement (.laxZp b) := ⟨rfl, rfl, Nat.le_of_ble_eq_true rfl⟩
theorem EncodingShape.laxZpy (b : Byte) : EncodingShape.Statement (.laxZpy b) := ⟨rfl, rfl, Nat.le_of_ble_eq_true rfl⟩
theorem EncodingShape.laxAbs (a : Addr) : EncodingShape.Statement (.laxAbs a) := ⟨rfl, rfl, Nat.le_of_ble_eq_true rfl⟩
theorem EncodingShape.laxAbsy (a : Addr) : EncodingShape.Statement (.laxAbsy a) := ⟨rfl, rfl, Nat.le_of_ble_eq_true rfl⟩
theorem EncodingShape.laxIzx (b : Byte) : EncodingShape.Statement (.laxIzx b) := ⟨rfl, rfl, Nat.le_of_ble_eq_true rfl⟩
theorem EncodingShape.laxIzy (b : Byte) : EncodingShape.Statement (.laxIzy b) := ⟨rfl, rfl, Nat.le_of_ble_eq_true rfl⟩
theorem EncodingShape.saxZp (b : Byte) : EncodingShape.Statement (.saxZp b) := ⟨rfl, rfl, Nat.le_of_ble_eq_true rfl⟩
theorem EncodingShape.saxZpy (b : Byte) : EncodingShape.Statement (.saxZpy b) := ⟨rfl, rfl, Nat.le_of_ble_eq_true rfl⟩
theorem EncodingShape.saxAbs (a : Addr) : EncodingShape.Statement (.saxAbs a) := ⟨rfl, rfl, Nat.le_of_ble_eq_true rfl⟩
theorem EncodingShape.saxIzx (b : Byte) : EncodingShape.Statement (.saxIzx b) := ⟨rfl, rfl, Nat.le_of_ble_eq_true rfl⟩
theorem EncodingShape.dcpZp (b : Byte) : EncodingShape.Statement (.dcpZp b) := ⟨rfl, rfl, Nat.le_of_ble_eq_true rfl⟩
theorem EncodingShape.dcpZpx (b : Byte) : EncodingShape.Statement (.dcpZpx b) := ⟨rfl, rfl, Nat.le_of_ble_eq_true rfl⟩
theorem EncodingShape.dcpAbs (a : Addr) : EncodingShape.Statement (.dcpAbs a) := ⟨rfl, rfl, Nat.le_of_ble_eq_true rfl⟩
theorem EncodingShape.dcpAbsx (a : Addr) : EncodingShape.Statement (.dcpAbsx a) := ⟨rfl, rfl, Nat.le_of_ble_eq_true rfl⟩
theorem EncodingShape.dcpAbsy (a : Addr) : EncodingShape.Statement (.dcpAbsy a) := ⟨rfl, rfl, Nat.le_of_ble_eq_true rfl⟩
theorem EncodingShape.dcpIzx (b : Byte) : EncodingShape.Statement (.dcpIzx b) := ⟨rfl, rfl, Nat.le_of_ble_eq_true rfl⟩
theorem EncodingShape.dcpIzy (b : Byte) : EncodingShape.Statement (.dcpIzy b) := ⟨rfl, rfl, Nat.le_of_ble_eq_true rfl⟩
theorem EncodingShape.iscZp (b : Byte) : EncodingShape.Statement (.iscZp b) := ⟨rfl, rfl, Nat.le_of_ble_eq_true rfl⟩
theorem EncodingShape.iscZpx (b : Byte) : EncodingShape.Statement (.iscZpx b) := ⟨rfl, rfl, Nat.le_of_ble_eq_true rfl⟩
theorem EncodingShape.iscAbs (a : Addr) : EncodingShape.Statement (.iscAbs a) := ⟨rfl, rfl, Nat.le_of_ble_eq_true rfl⟩
theorem EncodingShape.iscAbsx (a : Addr) : EncodingShape.Statement (.iscAbsx a) := ⟨rfl, rfl, Nat.le_of_ble_eq_true rfl⟩
theorem EncodingShape.iscAbsy (a : Addr) : EncodingShape.Statement (.iscAbsy a) := ⟨rfl, rfl, Nat.le_of_ble_eq_true rfl⟩
theorem EncodingShape.iscIzx (b : Byte) : EncodingShape.Statement (.iscIzx b) := ⟨rfl, rfl, Nat.le_of_ble_eq_true rfl⟩
theorem EncodingShape.iscIzy (b : Byte) : EncodingShape.Statement (.iscIzy b) := ⟨rfl, rfl, Nat.le_of_ble_eq_true rfl⟩

end Sys2Proof.Laws
end

