-- ==== Sys2Proof/Tests/Slice0.lean ====
section
/-! SUPPORT. Tests of the model: the vectors of 95_test_vectors.md, one step each, expected results copied from the spec; a word for every
row of the opcode table, written out from R114 and R116; the check that well-formedness refuses; and for every statement with
hypotheses a state and operands that meet them. -/

namespace Sys2Proof.Tests

open Sys2Proof Sys2Proof.Machine

/-! ## Helpers -/

/-- The memory that holds the listed bytes and 0x00 elsewhere. -/
def cellsOf (cells : List (Addr × Byte)) : Memory := cells.foldl (fun m c => m.write c.1 c.2) []

/-- A start state of 95_test_vectors.md section 2: registers, PC, the bytes of the instruction at PC, other bytes. -/
def place (a x y sp p : Byte) (pc : Addr) (bytes : List Byte) (cells : List (Addr × Byte)) : State :=
  { a := a, x := x, y := y, sp := sp, p := p, pc := pc, mem := (cellsOf cells).writeBytes pc bytes }

/-- One step from `s` ends with the listed registers, has written exactly the listed bytes, and returns the cycle count. -/
def runsTo (s : State) (a x y sp p : Byte) (pc : Addr) (written : List (Addr × Byte)) (cycles : Nat) : Bool :=
  match step s with
  | .next t => t == { a := a, x := x, y := y, sp := sp, p := p, pc := pc, mem := written.foldl (fun m c => m.write c.1 c.2) s.mem } &&
      stepResult s == .ok cycles
  | .fault _ => false
  | .refused _ => false

/-- The step from `s` stops with IllegalOpcode of the byte, and the host sees `s` unchanged. -/
def stopsAt (s : State) (op : Byte) : Bool :=
  match step s with
  | .fault (.illegalOpcode b) => b == op && s.afterStep == s
  | .next _ => false
  | .refused _ => false

/-! ## One step of each instruction: T1 to T96 -/

/-- T1, T2, T3, T4, T5, T6, T7 (R150): LDA #0: Z=1; LDA #$80: N=1; (zp,X): 7F+80 wraps to FF, pointer high byte from 0x0000; (zp),Y crosses page, no penalty; (zp),Y pointer high byte from 0x0000; abs,X wraps 0xFFFF+1 to 0x0000; operand byte at 0x0000, PC wraps. -/
theorem test_lda :
    runsTo (place 0x00 0x00 0x00 0xFD 0x34 0x8000 [0xA9, 0x00] [])
      0x00 0x00 0x00 0xFD 0x36 0x8002 [] 2 = true ∧
    runsTo (place 0x00 0x00 0x00 0xFD 0x34 0x8000 [0xA9, 0x80] [])
      0x80 0x00 0x00 0xFD 0xB4 0x8002 [] 2 = true ∧
    runsTo (place 0x00 0x80 0x00 0xFD 0x34 0x8000 [0xA1, 0x7F] [(0x0000, 0x12), (0x00FF, 0x34), (0x1234, 0x77)])
      0x77 0x80 0x00 0xFD 0x34 0x8002 [] 6 = true ∧
    runsTo (place 0x00 0x00 0x10 0xFD 0x34 0x8000 [0xB1, 0x40] [(0x0040, 0xF8), (0x0041, 0x12), (0x1308, 0x99)])
      0x99 0x00 0x10 0xFD 0xB4 0x8002 [] 5 = true ∧
    runsTo (place 0x00 0x00 0x01 0xFD 0x34 0x8000 [0xB1, 0xFF] [(0x0000, 0x03), (0x00FF, 0x00), (0x0301, 0x5A)])
      0x5A 0x00 0x01 0xFD 0x34 0x8002 [] 5 = true ∧
    runsTo (place 0x00 0x01 0x00 0xFD 0x34 0x8000 [0xBD, 0xFF, 0xFF] [(0x0000, 0x42)])
      0x42 0x01 0x00 0xFD 0x34 0x8003 [] 4 = true ∧
    runsTo (place 0x00 0x00 0x00 0xFD 0x34 0xFFFF [0xA9, 0x55] [(0x0000, 0x55)])
      0x55 0x00 0x00 0xFD 0x34 0x0001 [] 2 = true := by decide

/-- T8 (R151): LDX zp,Y wraps in page 0. -/
theorem test_ldx :
    runsTo (place 0x00 0x00 0x05 0xFD 0x34 0x8000 [0xB6, 0xFE] [(0x0003, 0xC0)])
      0x00 0xC0 0x05 0xFD 0xB4 0x8002 [] 4 = true := by decide

/-- T9 (R152): LDY abs,X, Z=1. -/
theorem test_ldy :
    runsTo (place 0x00 0x02 0x00 0xFD 0x34 0x8000 [0xBC, 0x00, 0x20] [(0x2002, 0x00)])
      0x00 0x02 0x00 0xFD 0x36 0x8003 [] 4 = true := by decide

/-- T10, T11 (R153): STA abs,X, flags unchanged; STA zp,X wraps to 0x10. -/
theorem test_sta :
    runsTo (place 0x3C 0x10 0x00 0xFD 0x34 0x8000 [0x9D, 0xF8, 0x12] [])
      0x3C 0x10 0x00 0xFD 0x34 0x8003 [(0x1308, 0x3C)] 5 = true ∧
    runsTo (place 0xAA 0x80 0x00 0xFD 0x34 0x8000 [0x95, 0x90] [])
      0xAA 0x80 0x00 0xFD 0x34 0x8002 [(0x0010, 0xAA)] 4 = true := by decide

/-- T12 (R154): STX zp,Y wraps to 0x01. -/
theorem test_stx :
    runsTo (place 0x00 0x77 0x02 0xFD 0x34 0x8000 [0x96, 0xFF] [])
      0x00 0x77 0x02 0xFD 0x34 0x8002 [(0x0001, 0x77)] 4 = true := by decide

/-- T13 (R155): STY stores 0, Z stays as it was. -/
theorem test_sty :
    runsTo (place 0x00 0x00 0x00 0xFD 0x36 0x8000 [0x8C, 0x00, 0x06] [])
      0x00 0x00 0x00 0xFD 0x36 0x8003 [(0x0600, 0x00)] 4 = true := by decide

/-- T14, T15, T16, T17, T18 (R162): positive overflow: V=1 N=1; negative overflow: C=1 V=1 Z=1; carry in: FF+00+1; D=1 has no effect: binary 0x0A; 7F+0+1: V=1. -/
theorem test_adc :
    runsTo (place 0x50 0x00 0x00 0xFD 0x34 0x8000 [0x69, 0x50] [])
      0xA0 0x00 0x00 0xFD 0xF4 0x8002 [] 2 = true ∧
    runsTo (place 0x80 0x00 0x00 0xFD 0x34 0x8000 [0x69, 0x80] [])
      0x00 0x00 0x00 0xFD 0x77 0x8002 [] 2 = true ∧
    runsTo (place 0xFF 0x00 0x00 0xFD 0x35 0x8000 [0x69, 0x00] [])
      0x00 0x00 0x00 0xFD 0x37 0x8002 [] 2 = true ∧
    runsTo (place 0x09 0x00 0x00 0xFD 0x3C 0x8000 [0x69, 0x01] [])
      0x0A 0x00 0x00 0xFD 0x3C 0x8002 [] 2 = true ∧
    runsTo (place 0x7F 0x00 0x00 0xFD 0x35 0x8000 [0x69, 0x00] [])
      0x80 0x00 0x00 0xFD 0xF4 0x8002 [] 2 = true := by decide

/-- T19, T20, T21, T22, T23 (R163): 50-F0: borrow, C=0; 50-B0: V=1; 00-01: FF, C=0 N=1; C=0 borrows one: 05-03-1; 80-01: V=1. -/
theorem test_sbc :
    runsTo (place 0x50 0x00 0x00 0xFD 0x35 0x8000 [0xE9, 0xF0] [])
      0x60 0x00 0x00 0xFD 0x34 0x8002 [] 2 = true ∧
    runsTo (place 0x50 0x00 0x00 0xFD 0x35 0x8000 [0xE9, 0xB0] [])
      0xA0 0x00 0x00 0xFD 0xF4 0x8002 [] 2 = true ∧
    runsTo (place 0x00 0x00 0x00 0xFD 0x35 0x8000 [0xE9, 0x01] [])
      0xFF 0x00 0x00 0xFD 0xB4 0x8002 [] 2 = true ∧
    runsTo (place 0x05 0x00 0x00 0xFD 0x34 0x8000 [0xE9, 0x03] [])
      0x01 0x00 0x00 0xFD 0x35 0x8002 [] 2 = true ∧
    runsTo (place 0x80 0x00 0x00 0xFD 0x35 0x8000 [0xE9, 0x01] [])
      0x7F 0x00 0x00 0xFD 0x75 0x8002 [] 2 = true := by decide

/-- T24 (R170): AND to zero: Z=1. -/
theorem test_and :
    runsTo (place 0xF0 0x00 0x00 0xFD 0x34 0x8000 [0x29, 0x0F] [])
      0x00 0x00 0x00 0xFD 0x36 0x8002 [] 2 = true := by decide

/-- T25 (R171): ORA: N=1. -/
theorem test_ora :
    runsTo (place 0x01 0x00 0x00 0xFD 0x34 0x8000 [0x09, 0x80] [])
      0x81 0x00 0x00 0xFD 0xB4 0x8002 [] 2 = true := by decide

/-- T26 (R172): EOR self-inverse: Z=1. -/
theorem test_eor :
    runsTo (place 0xFF 0x00 0x00 0xFD 0x34 0x8000 [0x49, 0xFF] [])
      0x00 0x00 0x00 0xFD 0x36 0x8002 [] 2 = true := by decide

/-- T27, T28 (R173): BIT: Z=1 N=1 V=1, A unchanged; BIT clears N and V from M. -/
theorem test_bit :
    runsTo (place 0x00 0x00 0x00 0xFD 0x34 0x8000 [0x24, 0x10] [(0x0010, 0xC0)])
      0x00 0x00 0x00 0xFD 0xF6 0x8002 [] 3 = true ∧
    runsTo (place 0x01 0x00 0x00 0xFD 0xF4 0x8000 [0x2C, 0x00, 0x03] [(0x0300, 0x3F)])
      0x01 0x00 0x00 0xFD 0x34 0x8003 [] 4 = true := by decide

/-- T29, T30 (R180): ASL A: C=1 Z=1; ASL zp: N=1. -/
theorem test_asl :
    runsTo (place 0x80 0x00 0x00 0xFD 0x34 0x8000 [0x0A] [])
      0x00 0x00 0x00 0xFD 0x37 0x8001 [] 2 = true ∧
    runsTo (place 0x00 0x00 0x00 0xFD 0x34 0x8000 [0x06, 0x10] [(0x0010, 0x40)])
      0x00 0x00 0x00 0xFD 0xB4 0x8002 [(0x0010, 0x80)] 5 = true := by decide

/-- T31, T32 (R181): LSR A: C=1 Z=1; LSR abs,X: N=0 always. -/
theorem test_lsr :
    runsTo (place 0x01 0x00 0x00 0xFD 0x34 0x8000 [0x4A] [])
      0x00 0x00 0x00 0xFD 0x37 0x8001 [] 2 = true ∧
    runsTo (place 0x00 0x01 0x00 0xFD 0x34 0x8000 [0x5E, 0xFF, 0x02] [(0x0300, 0xFF)])
      0x00 0x01 0x00 0xFD 0x35 0x8003 [(0x0300, 0x7F)] 7 = true := by decide

/-- T33, T34 (R182): ROL A, C=0: C=1 Z=1; ROL A, C=1: 81. -/
theorem test_rol :
    runsTo (place 0x80 0x00 0x00 0xFD 0x34 0x8000 [0x2A] [])
      0x00 0x00 0x00 0xFD 0x37 0x8001 [] 2 = true ∧
    runsTo (place 0x40 0x00 0x00 0xFD 0x35 0x8000 [0x2A] [])
      0x81 0x00 0x00 0xFD 0xB4 0x8001 [] 2 = true := by decide

/-- T35, T36 (R183): ROR A, C=1: 80 C=1 N=1; ROR zp, C=0: 00 C=1 Z=1. -/
theorem test_ror :
    runsTo (place 0x01 0x00 0x00 0xFD 0x35 0x8000 [0x6A] [])
      0x80 0x00 0x00 0xFD 0xB5 0x8001 [] 2 = true ∧
    runsTo (place 0x00 0x00 0x00 0xFD 0x34 0x8000 [0x66, 0x10] [(0x0010, 0x01)])
      0x00 0x00 0x00 0xFD 0x37 0x8002 [(0x0010, 0x00)] 5 = true := by decide

/-- T37, T38, T39, T40 (R191): equal: C=1 Z=1; less: C=0 N=1; 80 vs 00: C=1 N=1; 01 vs FF: C=0, V kept. -/
theorem test_cmp :
    runsTo (place 0x40 0x00 0x00 0xFD 0x34 0x8000 [0xC9, 0x40] [])
      0x40 0x00 0x00 0xFD 0x37 0x8002 [] 2 = true ∧
    runsTo (place 0x00 0x00 0x00 0xFD 0x34 0x8000 [0xC9, 0x01] [])
      0x00 0x00 0x00 0xFD 0xB4 0x8002 [] 2 = true ∧
    runsTo (place 0x80 0x00 0x00 0xFD 0x34 0x8000 [0xC9, 0x00] [])
      0x80 0x00 0x00 0xFD 0xB5 0x8002 [] 2 = true ∧
    runsTo (place 0x01 0x00 0x00 0xFD 0x74 0x8000 [0xC9, 0xFF] [])
      0x01 0x00 0x00 0xFD 0x74 0x8002 [] 2 = true := by decide

/-- T41 (R192): CPX zp less. -/
theorem test_cpx :
    runsTo (place 0x00 0x05 0x00 0xFD 0x34 0x8000 [0xE4, 0x10] [(0x0010, 0x06)])
      0x00 0x05 0x00 0xFD 0xB4 0x8002 [] 3 = true := by decide

/-- T42 (R193): CPY abs: C=1 N=1. -/
theorem test_cpy :
    runsTo (place 0x00 0x00 0xFF 0xFD 0x34 0x8000 [0xCC, 0x00, 0x02] [(0x0200, 0x00)])
      0x00 0x00 0xFF 0xFD 0xB5 0x8003 [] 4 = true := by decide

/-- T43 (R200): INC FF: 00 Z=1, C kept. -/
theorem test_inc :
    runsTo (place 0x00 0x00 0x00 0xFD 0x34 0x8000 [0xE6, 0x10] [(0x0010, 0xFF)])
      0x00 0x00 0x00 0xFD 0x36 0x8002 [(0x0010, 0x00)] 5 = true := by decide

/-- T44, T45 (R201): DEC 00: FF N=1; DEC zp,X wraps to 0x00: Z=1. -/
theorem test_dec :
    runsTo (place 0x00 0x00 0x00 0xFD 0x34 0x8000 [0xCE, 0x34, 0x12] [(0x1234, 0x00)])
      0x00 0x00 0x00 0xFD 0xB4 0x8003 [(0x1234, 0xFF)] 6 = true ∧
    runsTo (place 0x00 0x01 0x00 0xFD 0x34 0x8000 [0xD6, 0xFF] [(0x0000, 0x01)])
      0x00 0x01 0x00 0xFD 0x36 0x8002 [(0x0000, 0x00)] 6 = true := by decide

/-- T46 (R202): INX 7F: N=1. -/
theorem test_inx :
    runsTo (place 0x00 0x7F 0x00 0xFD 0x34 0x8000 [0xE8] [])
      0x00 0x80 0x00 0xFD 0xB4 0x8001 [] 2 = true := by decide

/-- T47 (R203): DEX 00: FF. -/
theorem test_dex :
    runsTo (place 0x00 0x00 0x00 0xFD 0x34 0x8000 [0xCA] [])
      0x00 0xFF 0x00 0xFD 0xB4 0x8001 [] 2 = true := by decide

/-- T48 (R204): INY FF: Z=1. -/
theorem test_iny :
    runsTo (place 0x00 0x00 0xFF 0xFD 0x34 0x8000 [0xC8] [])
      0x00 0x00 0x00 0xFD 0x36 0x8001 [] 2 = true := by decide

/-- T49 (R205): DEY 01: Z=1. -/
theorem test_dey :
    runsTo (place 0x00 0x00 0x01 0xFD 0x34 0x8000 [0x88] [])
      0x00 0x00 0x00 0xFD 0x36 0x8001 [] 2 = true := by decide

/-- T50 (R215): BNE taken backward. -/
theorem test_bne :
    runsTo (place 0x00 0x00 0x00 0xFD 0x34 0x8010 [0xD0, 0xFC] [])
      0x00 0x00 0x00 0xFD 0x34 0x800E [] 2 = true := by decide

/-- T51 (R213): BEQ not taken. -/
theorem test_beq :
    runsTo (place 0x00 0x00 0x00 0xFD 0x34 0x8000 [0xF0, 0x10] [])
      0x00 0x00 0x00 0xFD 0x34 0x8002 [] 2 = true := by decide

/-- T52 (R214): BMI taken forward, crosses page. -/
theorem test_bmi :
    runsTo (place 0x00 0x00 0x00 0xFD 0xB4 0x80F0 [0x30, 0x7F] [])
      0x00 0x00 0x00 0xFD 0xB4 0x8171 [] 2 = true := by decide

/-- T53 (R211): BCC target wraps to 0x0012. -/
theorem test_bcc :
    runsTo (place 0x00 0x00 0x00 0xFD 0x34 0xFFF0 [0x90, 0x20] [])
      0x00 0x00 0x00 0xFD 0x34 0x0012 [] 2 = true := by decide

/-- T54 (R212): BCS offset 0: same PC either way. -/
theorem test_bcs :
    runsTo (place 0x00 0x00 0x00 0xFD 0x35 0x8000 [0xB0, 0x00] [])
      0x00 0x00 0x00 0xFD 0x35 0x8002 [] 2 = true := by decide

/-- T55 (R216): BPL offset -128. -/
theorem test_bpl :
    runsTo (place 0x00 0x00 0x00 0xFD 0x34 0x8000 [0x10, 0x80] [])
      0x00 0x00 0x00 0xFD 0x34 0x7F82 [] 2 = true := by decide

/-- T56 (R217): BVC not taken (V=1). -/
theorem test_bvc :
    runsTo (place 0x00 0x00 0x00 0xFD 0x74 0x8000 [0x50, 0x10] [])
      0x00 0x00 0x00 0xFD 0x74 0x8002 [] 2 = true := by decide

/-- T57 (R218): BVS to itself. -/
theorem test_bvs :
    runsTo (place 0x00 0x00 0x00 0xFD 0x74 0x9000 [0x70, 0xFE] [])
      0x00 0x00 0x00 0xFD 0x74 0x9000 [] 2 = true := by decide

/-- T58, T59, T60 (R219): JMP abs; JMP ind, no wrap; JMP ind page-wrap: hi from 0x1000. -/
theorem test_jmp :
    runsTo (place 0x00 0x00 0x00 0xFD 0x34 0x8000 [0x4C, 0x00, 0xC0] [])
      0x00 0x00 0x00 0xFD 0x34 0xC000 [] 3 = true ∧
    runsTo (place 0x00 0x00 0x00 0xFD 0x34 0x8000 [0x6C, 0x00, 0x03] [(0x0300, 0x78), (0x0301, 0x56)])
      0x00 0x00 0x00 0xFD 0x34 0x5678 [] 5 = true ∧
    runsTo (place 0x00 0x00 0x00 0xFD 0x34 0x8000 [0x6C, 0xFF, 0x10] [(0x1000, 0xAB), (0x10FF, 0xCD), (0x1100, 0xEE)])
      0x00 0x00 0x00 0xFD 0x34 0xABCD [] 5 = true := by decide

/-- T61, T62 (R228): JSR pushes 80 02; JSR with SP=00 wraps. -/
theorem test_jsr :
    runsTo (place 0x00 0x00 0x00 0xFD 0x34 0x8000 [0x20, 0x00, 0x90] [])
      0x00 0x00 0x00 0xFB 0x34 0x9000 [(0x01FD, 0x80), (0x01FC, 0x02)] 6 = true ∧
    runsTo (place 0x00 0x00 0x00 0x00 0x34 0x8000 [0x20, 0x00, 0x90] [])
      0x00 0x00 0x00 0xFE 0x34 0x9000 [(0x0100, 0x80), (0x01FF, 0x02)] 6 = true := by decide

/-- T63, T64 (R229): RTS adds 1; RTS from FFFF wraps to 0000. -/
theorem test_rts :
    runsTo (place 0x00 0x00 0x00 0xFB 0x34 0x8000 [0x60] [(0x01FC, 0x02), (0x01FD, 0x80)])
      0x00 0x00 0x00 0xFD 0x34 0x8003 [] 6 = true ∧
    runsTo (place 0x00 0x00 0x00 0xFB 0x34 0x8000 [0x60] [(0x01FC, 0xFF), (0x01FD, 0xFF)])
      0x00 0x00 0x00 0xFD 0x34 0x0000 [] 6 = true := by decide

/-- T65 (R230): PHA at SP=00 writes 0100, SP=FF. -/
theorem test_pha :
    runsTo (place 0x99 0x00 0x00 0x00 0x34 0x8000 [0x48] [])
      0x99 0x00 0x00 0xFF 0x34 0x8001 [(0x0100, 0x99)] 3 = true := by decide

/-- T66 (R231): PHP pushes B=1. -/
theorem test_php :
    runsTo (place 0x00 0x00 0x00 0xFD 0x20 0x8000 [0x08] [])
      0x00 0x00 0x00 0xFC 0x20 0x8001 [(0x01FD, 0x30)] 3 = true := by decide

/-- T67 (R232): PLA at SP=FF reads 0100, Z=1. -/
theorem test_pla :
    runsTo (place 0x00 0x00 0x00 0xFF 0x34 0x8000 [0x68] [(0x0100, 0x00)])
      0x00 0x00 0x00 0x00 0x36 0x8001 [] 4 = true := by decide

/-- T68, T69 (R233): PLP 00: P=20; PLP FF: P=FF. -/
theorem test_plp :
    runsTo (place 0x00 0x00 0x00 0xFC 0x34 0x8000 [0x28] [(0x01FD, 0x00)])
      0x00 0x00 0x00 0xFD 0x20 0x8001 [] 4 = true ∧
    runsTo (place 0x00 0x00 0x00 0xFC 0x34 0x8000 [0x28] [(0x01FD, 0xFF)])
      0x00 0x00 0x00 0xFD 0xFF 0x8001 [] 4 = true := by decide

/-- T70, T71 (R234): BRK; BRK keeps D, C; pushes 3D. -/
theorem test_brk :
    runsTo (place 0x00 0x00 0x00 0xFD 0x20 0x8000 [0x00] [(0xFFFE, 0x00), (0xFFFF, 0x90)])
      0x00 0x00 0x00 0xFA 0x24 0x9000 [(0x01FD, 0x80), (0x01FC, 0x02), (0x01FB, 0x30)] 7 = true ∧
    runsTo (place 0x00 0x00 0x00 0xFD 0x2D 0x8000 [0x00] [(0xFFFE, 0x34), (0xFFFF, 0x12)])
      0x00 0x00 0x00 0xFA 0x2D 0x1234 [(0x01FD, 0x80), (0x01FC, 0x02), (0x01FB, 0x3D)] 7 = true := by decide

/-- T72 (R235): RTI of 00: P=20, no +1. -/
theorem test_rti :
    runsTo (place 0x00 0x00 0x00 0xFA 0x34 0x8000 [0x40] [(0x01FB, 0x00), (0x01FC, 0x02), (0x01FD, 0x80)])
      0x00 0x00 0x00 0xFD 0x20 0x8002 [] 6 = true := by decide

/-- T73 (R245): TAX 0: Z=1. -/
theorem test_tax :
    runsTo (place 0x00 0x55 0x00 0xFD 0x34 0x8000 [0xAA] [])
      0x00 0x00 0x00 0xFD 0x36 0x8001 [] 2 = true := by decide

/-- T74 (R246): TAY: N=1. -/
theorem test_tay :
    runsTo (place 0x80 0x00 0x00 0xFD 0x34 0x8000 [0xA8] [])
      0x80 0x00 0x80 0xFD 0xB4 0x8001 [] 2 = true := by decide

/-- T75 (R247): TSX SP=00: Z=1. -/
theorem test_tsx :
    runsTo (place 0x00 0x00 0x00 0x00 0x34 0x8000 [0xBA] [])
      0x00 0x00 0x00 0x00 0x36 0x8001 [] 2 = true := by decide

/-- T76 (R248): TXA: N=1. -/
theorem test_txa :
    runsTo (place 0x00 0xFF 0x00 0xFD 0x34 0x8000 [0x8A] [])
      0xFF 0xFF 0x00 0xFD 0xB4 0x8001 [] 2 = true := by decide

/-- T77 (R249): TXS 0: flags unchanged. -/
theorem test_txs :
    runsTo (place 0x00 0x00 0x00 0xFD 0xB4 0x8000 [0x9A] [])
      0x00 0x00 0x00 0x00 0xB4 0x8001 [] 2 = true := by decide

/-- T78 (R250): TYA clears Z and N. -/
theorem test_tya :
    runsTo (place 0x00 0x00 0x01 0xFD 0xB6 0x8000 [0x98] [])
      0x01 0x00 0x01 0xFD 0x34 0x8001 [] 2 = true := by decide

/-- T79 (R251): CLC. -/
theorem test_clc :
    runsTo (place 0x00 0x00 0x00 0xFD 0xFF 0x8000 [0x18] [])
      0x00 0x00 0x00 0xFD 0xFE 0x8001 [] 2 = true := by decide

/-- T80 (R252): SEC. -/
theorem test_sec :
    runsTo (place 0x00 0x00 0x00 0xFD 0x20 0x8000 [0x38] [])
      0x00 0x00 0x00 0xFD 0x21 0x8001 [] 2 = true := by decide

/-- T81 (R253): CLI. -/
theorem test_cli :
    runsTo (place 0x00 0x00 0x00 0xFD 0x34 0x8000 [0x58] [])
      0x00 0x00 0x00 0xFD 0x30 0x8001 [] 2 = true := by decide

/-- T82 (R254): SEI. -/
theorem test_sei :
    runsTo (place 0x00 0x00 0x00 0xFD 0x20 0x8000 [0x78] [])
      0x00 0x00 0x00 0xFD 0x24 0x8001 [] 2 = true := by decide

/-- T83 (R255): CLV. -/
theorem test_clv :
    runsTo (place 0x00 0x00 0x00 0xFD 0x60 0x8000 [0xB8] [])
      0x00 0x00 0x00 0xFD 0x20 0x8001 [] 2 = true := by decide

/-- T84 (R256): CLD. -/
theorem test_cld :
    runsTo (place 0x00 0x00 0x00 0xFD 0x28 0x8000 [0xD8] [])
      0x00 0x00 0x00 0xFD 0x20 0x8001 [] 2 = true := by decide

/-- T85 (R257): SED. -/
theorem test_sed :
    runsTo (place 0x00 0x00 0x00 0xFD 0x20 0x8000 [0xF8] [])
      0x00 0x00 0x00 0xFD 0x28 0x8001 [] 2 = true := by decide

/-- T86 (R258): NOP. -/
theorem test_nop :
    runsTo (place 0x00 0x00 0x00 0xFD 0x34 0x8000 [0xEA] [])
      0x00 0x00 0x00 0xFD 0x34 0x8001 [] 2 = true := by decide

/-- T87 (R261): LAX (zp),Y: Z=1. -/
theorem test_lax :
    runsTo (place 0x00 0x00 0x02 0xFD 0x34 0x8000 [0xB3, 0x10] [(0x0010, 0xFF), (0x0011, 0x20), (0x2101, 0x00)])
      0x00 0x00 0x02 0xFD 0x36 0x8002 [] 5 = true := by decide

/-- T88 (R262): SAX zp,Y wraps to 0x00. -/
theorem test_sax :
    runsTo (place 0xF0 0x3C 0x01 0xFD 0x34 0x8000 [0x97, 0xFF] [])
      0xF0 0x3C 0x01 0xFD 0x34 0x8002 [(0x0000, 0x30)] 4 = true := by decide

/-- T89, T90 (R263): DCP 00: FF, A=00 vs FF C=0; DCP: A=FF vs FF, C=1 Z=1. -/
theorem test_dcp :
    runsTo (place 0x00 0x00 0x00 0xFD 0x34 0x8000 [0xC7, 0x10] [(0x0010, 0x00)])
      0x00 0x00 0x00 0xFD 0x34 0x8002 [(0x0010, 0xFF)] 5 = true ∧
    runsTo (place 0xFF 0x00 0x00 0xFD 0x34 0x8000 [0xCF, 0x00, 0x03] [(0x0300, 0x00)])
      0xFF 0x00 0x00 0xFD 0x37 0x8003 [(0x0300, 0xFF)] 6 = true := by decide

/-- T91, T92 (R264): ISC FF: 00, A=10-00; ISC: 80-01, V=1. -/
theorem test_isc :
    runsTo (place 0x10 0x00 0x00 0xFD 0x35 0x8000 [0xE7, 0x10] [(0x0010, 0xFF)])
      0x10 0x00 0x00 0xFD 0x35 0x8002 [(0x0010, 0x00)] 5 = true ∧
    runsTo (place 0x80 0x00 0x00 0xFD 0x35 0x8000 [0xEF, 0x00, 0x03] [(0x0300, 0x00)])
      0x7F 0x00 0x00 0xFD 0x75 0x8003 [(0x0300, 0x01)] 6 = true := by decide

/-- T93, T94, T95, T96 (R270): STP byte is illegal, nothing changes; 0x89 is absent from the map (30_encoding.md rule R119), so illegal; unofficial NOP 0x1A is illegal; SHX is illegal. -/
theorem test_illegal_opcode :
    stopsAt (place 0x12 0x00 0x00 0xFD 0x34 0x8000 [0x02] [])
      0x02 = true ∧
    stopsAt (place 0x00 0x00 0x00 0xFD 0x34 0x8000 [0x89, 0x00] [])
      0x89 = true ∧
    stopsAt (place 0x00 0x00 0x00 0xFD 0x34 0x8000 [0x1A] [])
      0x1A = true ∧
    stopsAt (place 0x00 0x00 0x00 0xFD 0x34 0x8000 [0x9E, 0x00, 0x02] [])
      0x9E = true := by decide

/-! ## The examples of the source: V1 to V8 (V9 is the decoding tests below) -/

/-- V1: SetZN on the four bytes of the table. -/
theorem test_v1_setZN : setZN 0x34 0x00 = 0x36 ∧ setZN 0x34 0x80 = 0xB4 ∧ setZN 0xB6 0x7F = 0x34 ∧ setZN 0x6F 0xFF = 0xED := by decide

/-- V2 and the second reset instance: PC from the vector, the registers kept. -/
theorem test_v2_reset :
    (State.powerOn (cellsOf [(0xFFFC, 0x00), (0xFFFD, 0x80)])).resetCommand.pc = 0x8000 ∧
    (place 0x11 0x00 0x00 0x80 0xE5 0x8000 [] [(0xFFFC, 0x34), (0xFFFD, 0x12)]).resetCommand =
      { place 0x11 0x00 0x00 0x80 0xE5 0x8000 [] [(0xFFFC, 0x34), (0xFFFD, 0x12)] with pc := 0x1234 } := by decide

/-- V3 to V6: LDA immediate, STA zero page, ADC immediate with carry out, INX from 0xFF. -/
theorem test_v3_to_v6 :
    runsTo (place 0x00 0x00 0x00 0xFD 0x34 0x8000 [0xA9, 0x42] []) 0x42 0x00 0x00 0xFD 0x34 0x8002 [] 2 = true ∧
    runsTo (place 0x55 0x00 0x00 0xFD 0x34 0x8000 [0x85, 0x10] []) 0x55 0x00 0x00 0xFD 0x34 0x8002 [(0x0010, 0x55)] 3 = true ∧
    runsTo (place 0xFF 0x00 0x00 0xFD 0x34 0x8000 [0x69, 0x01] []) 0x00 0x00 0x00 0xFD 0x37 0x8002 [] 2 = true ∧
    runsTo (place 0x00 0xFF 0x00 0xFD 0x34 0x8000 [0xE8] []) 0x00 0x00 0x00 0xFD 0x36 0x8001 [] 2 = true := by decide

/-- V7: the RTS that ends a call made at 0x8000 goes to 0x8003 (the state is the one after the JSR of T61). -/
theorem test_v7_return :
    runsTo (place 0x00 0x00 0x00 0xFB 0x34 0x9000 [0x60] [(0x01FD, 0x80), (0x01FC, 0x02)]) 0x00 0x00 0x00 0xFD 0x34 0x8003 [] 6 = true := by
  decide

/-- V8: the pointer's high byte comes from 0x0200, not from 0x0300. -/
theorem test_v8_page_wrap :
    runsTo (place 0x00 0x00 0x00 0xFD 0x34 0x8000 [0x6C, 0xFF, 0x02] [(0x02FF, 0x34), (0x0200, 0x12), (0x0300, 0x56)])
      0x00 0x00 0x00 0xFD 0x34 0x1234 [] 5 = true := by decide

/-- R69, D14: the accesses of BRK in their order: opcode, three pushes, the two vector bytes. -/
theorem test_brk_bus_order :
    busAccesses (place 0x00 0x00 0x00 0xFD 0x20 0x8000 [0x00] [(0xFFFE, 0x00), (0xFFFF, 0x90)]) =
      [.read 0x8000 0x00, .write 0x01FD 0x80, .write 0x01FC 0x02, .write 0x01FB 0x30, .read 0xFFFE 0x00, .read 0xFFFF 0x90] := by decide

/-- R69: the accesses of INC absolute,X in their order: opcode, two operand bytes, one read and one write of the operand. -/
theorem test_inc_bus_order :
    busAccesses (place 0x00 0x01 0x00 0xFD 0x34 0x8000 [0xFE, 0xFF, 0x02] [(0x0300, 0x07)]) =
      [.read 0x8000 0xFE, .read 0x8001 0xFF, .read 0x8002 0x02, .read 0x0300 0x07, .write 0x0300 0x08] := by decide

/-! ## Well-formedness and decoding -/

/-- An unofficial instruction is refused where UNOFFICIAL_EXEC is false (R115), one per mnemonic of R116; official ones are not. -/
theorem test_wellformed_refuses :
    Instr.wfWith false (.laxZp 0x10) = false ∧ Instr.wfWith false (.saxAbs 0x1234) = false ∧ Instr.wfWith false (.dcpIzy 0x20) = false ∧
    Instr.wfWith false (.iscAbsx 0x1234) = false ∧ Instr.wfWith false (.ldaImm 0x42) = true ∧ (Instr.laxZp 0x10).WellFormed := by decide

/-- A byte outside the map, an empty string and a string cut short are rejected by name (R95, R117). -/
theorem test_decode_rejects :
    decode [0x02, 0x00, 0x00] = .error (.illegalOpcode 0x02) ∧ decode [0x89, 0x00] = .error (.illegalOpcode 0x89) ∧
    decode [0xFC, 0x00, 0x00] = .error (.illegalOpcode 0xFC) ∧ decode [] = .error .noBytes ∧
    decode [0xAD, 0x34] = .error (.truncated 0xAD) := ⟨rfl, rfl, rfl, rfl, rfl⟩

/-- `i` is what the decoder reads from the bytes, with none left. -/
abbrev Reads (bytes : List Byte) (i : Instr) : Prop := decode bytes = .ok (i, [])

/-- The words of the load, store family (R114). -/
theorem test_decode_load_store :
    Reads [0xA9, 0x9C] (.ldaImm 0x9C) ∧ Reads [0xA5, 0x9C] (.ldaZp 0x9C) ∧ Reads [0xB5, 0x9C] (.ldaZpx 0x9C) ∧
    Reads [0xAD, 0x34, 0x12] (.ldaAbs 0x1234) ∧ Reads [0xBD, 0x34, 0x12] (.ldaAbsx 0x1234) ∧ Reads [0xB9, 0x34, 0x12] (.ldaAbsy 0x1234) ∧
    Reads [0xA1, 0x9C] (.ldaIzx 0x9C) ∧ Reads [0xB1, 0x9C] (.ldaIzy 0x9C) ∧ Reads [0xA2, 0x9C] (.ldxImm 0x9C) ∧
    Reads [0xA6, 0x9C] (.ldxZp 0x9C) ∧ Reads [0xB6, 0x9C] (.ldxZpy 0x9C) ∧ Reads [0xAE, 0x34, 0x12] (.ldxAbs 0x1234) ∧
    Reads [0xBE, 0x34, 0x12] (.ldxAbsy 0x1234) ∧ Reads [0xA0, 0x9C] (.ldyImm 0x9C) ∧ Reads [0xA4, 0x9C] (.ldyZp 0x9C) ∧
    Reads [0xB4, 0x9C] (.ldyZpx 0x9C) ∧ Reads [0xAC, 0x34, 0x12] (.ldyAbs 0x1234) ∧ Reads [0xBC, 0x34, 0x12] (.ldyAbsx 0x1234) ∧
    Reads [0x85, 0x9C] (.staZp 0x9C) ∧ Reads [0x95, 0x9C] (.staZpx 0x9C) ∧ Reads [0x8D, 0x34, 0x12] (.staAbs 0x1234) ∧
    Reads [0x9D, 0x34, 0x12] (.staAbsx 0x1234) ∧ Reads [0x99, 0x34, 0x12] (.staAbsy 0x1234) ∧ Reads [0x81, 0x9C] (.staIzx 0x9C) ∧
    Reads [0x91, 0x9C] (.staIzy 0x9C) ∧ Reads [0x86, 0x9C] (.stxZp 0x9C) ∧ Reads [0x96, 0x9C] (.stxZpy 0x9C) ∧
    Reads [0x8E, 0x34, 0x12] (.stxAbs 0x1234) ∧ Reads [0x84, 0x9C] (.styZp 0x9C) ∧ Reads [0x94, 0x9C] (.styZpx 0x9C) ∧
    Reads [0x8C, 0x34, 0x12] (.styAbs 0x1234) :=
  ⟨rfl, rfl, rfl, rfl, rfl, rfl, rfl, rfl, rfl, rfl, rfl, rfl, rfl, rfl, rfl, rfl, rfl, rfl, rfl, rfl, rfl, rfl, rfl, rfl, rfl, rfl, rfl, rfl, rfl, rfl, rfl⟩

/-- The words of the arithmetic family (R114). -/
theorem test_decode_arithmetic :
    Reads [0x69, 0x9C] (.adcImm 0x9C) ∧ Reads [0x65, 0x9C] (.adcZp 0x9C) ∧ Reads [0x75, 0x9C] (.adcZpx 0x9C) ∧
    Reads [0x6D, 0x34, 0x12] (.adcAbs 0x1234) ∧ Reads [0x7D, 0x34, 0x12] (.adcAbsx 0x1234) ∧ Reads [0x79, 0x34, 0x12] (.adcAbsy 0x1234) ∧
    Reads [0x61, 0x9C] (.adcIzx 0x9C) ∧ Reads [0x71, 0x9C] (.adcIzy 0x9C) ∧ Reads [0xE9, 0x9C] (.sbcImm 0x9C) ∧
    Reads [0xE5, 0x9C] (.sbcZp 0x9C) ∧ Reads [0xF5, 0x9C] (.sbcZpx 0x9C) ∧ Reads [0xED, 0x34, 0x12] (.sbcAbs 0x1234) ∧
    Reads [0xFD, 0x34, 0x12] (.sbcAbsx 0x1234) ∧ Reads [0xF9, 0x34, 0x12] (.sbcAbsy 0x1234) ∧ Reads [0xE1, 0x9C] (.sbcIzx 0x9C) ∧
    Reads [0xF1, 0x9C] (.sbcIzy 0x9C) :=
  ⟨rfl, rfl, rfl, rfl, rfl, rfl, rfl, rfl, rfl, rfl, rfl, rfl, rfl, rfl, rfl, rfl⟩

/-- The words of the logical family (R114). -/
theorem test_decode_logical :
    Reads [0x29, 0x9C] (.andImm 0x9C) ∧ Reads [0x25, 0x9C] (.andZp 0x9C) ∧ Reads [0x35, 0x9C] (.andZpx 0x9C) ∧
    Reads [0x2D, 0x34, 0x12] (.andAbs 0x1234) ∧ Reads [0x3D, 0x34, 0x12] (.andAbsx 0x1234) ∧ Reads [0x39, 0x34, 0x12] (.andAbsy 0x1234) ∧
    Reads [0x21, 0x9C] (.andIzx 0x9C) ∧ Reads [0x31, 0x9C] (.andIzy 0x9C) ∧ Reads [0x09, 0x9C] (.oraImm 0x9C) ∧
    Reads [0x05, 0x9C] (.oraZp 0x9C) ∧ Reads [0x15, 0x9C] (.oraZpx 0x9C) ∧ Reads [0x0D, 0x34, 0x12] (.oraAbs 0x1234) ∧
    Reads [0x1D, 0x34, 0x12] (.oraAbsx 0x1234) ∧ Reads [0x19, 0x34, 0x12] (.oraAbsy 0x1234) ∧ Reads [0x01, 0x9C] (.oraIzx 0x9C) ∧
    Reads [0x11, 0x9C] (.oraIzy 0x9C) ∧ Reads [0x49, 0x9C] (.eorImm 0x9C) ∧ Reads [0x45, 0x9C] (.eorZp 0x9C) ∧
    Reads [0x55, 0x9C] (.eorZpx 0x9C) ∧ Reads [0x4D, 0x34, 0x12] (.eorAbs 0x1234) ∧ Reads [0x5D, 0x34, 0x12] (.eorAbsx 0x1234) ∧
    Reads [0x59, 0x34, 0x12] (.eorAbsy 0x1234) ∧ Reads [0x41, 0x9C] (.eorIzx 0x9C) ∧ Reads [0x51, 0x9C] (.eorIzy 0x9C) ∧
    Reads [0x24, 0x9C] (.bitZp 0x9C) ∧ Reads [0x2C, 0x34, 0x12] (.bitAbs 0x1234) :=
  ⟨rfl, rfl, rfl, rfl, rfl, rfl, rfl, rfl, rfl, rfl, rfl, rfl, rfl, rfl, rfl, rfl, rfl, rfl, rfl, rfl, rfl, rfl, rfl, rfl, rfl, rfl⟩

/-- The words of the shift family (R114). -/
theorem test_decode_shift :
    Reads [0x06, 0x9C] (.aslZp 0x9C) ∧ Reads [0x16, 0x9C] (.aslZpx 0x9C) ∧ Reads [0x0E, 0x34, 0x12] (.aslAbs 0x1234) ∧
    Reads [0x1E, 0x34, 0x12] (.aslAbsx 0x1234) ∧ Reads [0x0A] .aslAcc ∧ Reads [0x46, 0x9C] (.lsrZp 0x9C) ∧
    Reads [0x56, 0x9C] (.lsrZpx 0x9C) ∧ Reads [0x4E, 0x34, 0x12] (.lsrAbs 0x1234) ∧ Reads [0x5E, 0x34, 0x12] (.lsrAbsx 0x1234) ∧
    Reads [0x4A] .lsrAcc ∧ Reads [0x26, 0x9C] (.rolZp 0x9C) ∧ Reads [0x36, 0x9C] (.rolZpx 0x9C) ∧
    Reads [0x2E, 0x34, 0x12] (.rolAbs 0x1234) ∧ Reads [0x3E, 0x34, 0x12] (.rolAbsx 0x1234) ∧ Reads [0x2A] .rolAcc ∧
    Reads [0x66, 0x9C] (.rorZp 0x9C) ∧ Reads [0x76, 0x9C] (.rorZpx 0x9C) ∧ Reads [0x6E, 0x34, 0x12] (.rorAbs 0x1234) ∧
    Reads [0x7E, 0x34, 0x12] (.rorAbsx 0x1234) ∧ Reads [0x6A] .rorAcc :=
  ⟨rfl, rfl, rfl, rfl, rfl, rfl, rfl, rfl, rfl, rfl, rfl, rfl, rfl, rfl, rfl, rfl, rfl, rfl, rfl, rfl⟩

/-- The words of the compare family (R114). -/
theorem test_decode_compare :
    Reads [0xC9, 0x9C] (.cmpImm 0x9C) ∧ Reads [0xC5, 0x9C] (.cmpZp 0x9C) ∧ Reads [0xD5, 0x9C] (.cmpZpx 0x9C) ∧
    Reads [0xCD, 0x34, 0x12] (.cmpAbs 0x1234) ∧ Reads [0xDD, 0x34, 0x12] (.cmpAbsx 0x1234) ∧ Reads [0xD9, 0x34, 0x12] (.cmpAbsy 0x1234) ∧
    Reads [0xC1, 0x9C] (.cmpIzx 0x9C) ∧ Reads [0xD1, 0x9C] (.cmpIzy 0x9C) ∧ Reads [0xE0, 0x9C] (.cpxImm 0x9C) ∧
    Reads [0xE4, 0x9C] (.cpxZp 0x9C) ∧ Reads [0xEC, 0x34, 0x12] (.cpxAbs 0x1234) ∧ Reads [0xC0, 0x9C] (.cpyImm 0x9C) ∧
    Reads [0xC4, 0x9C] (.cpyZp 0x9C) ∧ Reads [0xCC, 0x34, 0x12] (.cpyAbs 0x1234) :=
  ⟨rfl, rfl, rfl, rfl, rfl, rfl, rfl, rfl, rfl, rfl, rfl, rfl, rfl, rfl⟩

/-- The words of the inc, dec family (R114). -/
theorem test_decode_inc_dec :
    Reads [0xE6, 0x9C] (.incZp 0x9C) ∧ Reads [0xF6, 0x9C] (.incZpx 0x9C) ∧ Reads [0xEE, 0x34, 0x12] (.incAbs 0x1234) ∧
    Reads [0xFE, 0x34, 0x12] (.incAbsx 0x1234) ∧ Reads [0xC6, 0x9C] (.decZp 0x9C) ∧ Reads [0xD6, 0x9C] (.decZpx 0x9C) ∧
    Reads [0xCE, 0x34, 0x12] (.decAbs 0x1234) ∧ Reads [0xDE, 0x34, 0x12] (.decAbsx 0x1234) ∧ Reads [0xE8] .inx ∧
    Reads [0xCA] .dex ∧ Reads [0xC8] .iny ∧ Reads [0x88] .dey :=
  ⟨rfl, rfl, rfl, rfl, rfl, rfl, rfl, rfl, rfl, rfl, rfl, rfl⟩

/-- The words of the branch, jump family (R114). -/
theorem test_decode_branch_jump :
    Reads [0x90, 0x9C] (.bcc 0x9C) ∧ Reads [0xB0, 0x9C] (.bcs 0x9C) ∧ Reads [0xF0, 0x9C] (.beq 0x9C) ∧
    Reads [0x30, 0x9C] (.bmi 0x9C) ∧ Reads [0xD0, 0x9C] (.bne 0x9C) ∧ Reads [0x10, 0x9C] (.bpl 0x9C) ∧
    Reads [0x50, 0x9C] (.bvc 0x9C) ∧ Reads [0x70, 0x9C] (.bvs 0x9C) ∧ Reads [0x4C, 0x34, 0x12] (.jmpAbs 0x1234) ∧
    Reads [0x6C, 0x34, 0x12] (.jmpInd 0x1234) :=
  ⟨rfl, rfl, rfl, rfl, rfl, rfl, rfl, rfl, rfl, rfl⟩

/-- The words of the stack family (R114). -/
theorem test_decode_stack :
    Reads [0x20, 0x34, 0x12] (.jsr 0x1234) ∧ Reads [0x60] .rts ∧ Reads [0x48] .pha ∧
    Reads [0x08] .php ∧ Reads [0x68] .pla ∧ Reads [0x28] .plp ∧
    Reads [0x00] .brk ∧ Reads [0x40] .rti :=
  ⟨rfl, rfl, rfl, rfl, rfl, rfl, rfl, rfl⟩

/-- The words of the transfer, flag, nop family (R114). -/
theorem test_decode_transfer_flag_nop :
    Reads [0xAA] .tax ∧ Reads [0xA8] .tay ∧ Reads [0xBA] .tsx ∧
    Reads [0x8A] .txa ∧ Reads [0x9A] .txs ∧ Reads [0x98] .tya ∧
    Reads [0x18] .clc ∧ Reads [0x38] .sec ∧ Reads [0x58] .cli ∧
    Reads [0x78] .sei ∧ Reads [0xB8] .clv ∧ Reads [0xD8] .cld ∧
    Reads [0xF8] .sed ∧ Reads [0xEA] .nop :=
  ⟨rfl, rfl, rfl, rfl, rfl, rfl, rfl, rfl, rfl, rfl, rfl, rfl, rfl, rfl⟩

/-- The words of the unofficial family (R114, R116). -/
theorem test_decode_unofficial :
    Reads [0xA7, 0x9C] (.laxZp 0x9C) ∧ Reads [0xB7, 0x9C] (.laxZpy 0x9C) ∧ Reads [0xAF, 0x34, 0x12] (.laxAbs 0x1234) ∧
    Reads [0xBF, 0x34, 0x12] (.laxAbsy 0x1234) ∧ Reads [0xA3, 0x9C] (.laxIzx 0x9C) ∧ Reads [0xB3, 0x9C] (.laxIzy 0x9C) ∧
    Reads [0x87, 0x9C] (.saxZp 0x9C) ∧ Reads [0x97, 0x9C] (.saxZpy 0x9C) ∧ Reads [0x8F, 0x34, 0x12] (.saxAbs 0x1234) ∧
    Reads [0x83, 0x9C] (.saxIzx 0x9C) ∧ Reads [0xC7, 0x9C] (.dcpZp 0x9C) ∧ Reads [0xD7, 0x9C] (.dcpZpx 0x9C) ∧
    Reads [0xCF, 0x34, 0x12] (.dcpAbs 0x1234) ∧ Reads [0xDF, 0x34, 0x12] (.dcpAbsx 0x1234) ∧ Reads [0xDB, 0x34, 0x12] (.dcpAbsy 0x1234) ∧
    Reads [0xC3, 0x9C] (.dcpIzx 0x9C) ∧ Reads [0xD3, 0x9C] (.dcpIzy 0x9C) ∧ Reads [0xE7, 0x9C] (.iscZp 0x9C) ∧
    Reads [0xF7, 0x9C] (.iscZpx 0x9C) ∧ Reads [0xEF, 0x34, 0x12] (.iscAbs 0x1234) ∧ Reads [0xFF, 0x34, 0x12] (.iscAbsx 0x1234) ∧
    Reads [0xFB, 0x34, 0x12] (.iscAbsy 0x1234) ∧ Reads [0xE3, 0x9C] (.iscIzx 0x9C) ∧ Reads [0xF3, 0x9C] (.iscIzy 0x9C) :=
  ⟨rfl, rfl, rfl, rfl, rfl, rfl, rfl, rfl, rfl, rfl, rfl, rfl, rfl, rfl, rfl, rfl, rfl, rfl, rfl, rfl, rfl, rfl, rfl, rfl⟩

/-- The table's numbering: bits 7..0 the opcode byte, then the operand bytes; bits from `nbits` up are 0. -/
theorem test_table_word :
    decodeTableWord 8 0xA9 = some (.ldaImm 0x00) ∧ decodeTableWord 16 0x42A9 = some (.ldaImm 0x42) ∧
    decodeTableWord 24 0x1234AD = some (.ldaAbs 0x1234) ∧ decodeTableWord 8 0x02 = none := ⟨rfl, rfl, rfl, rfl⟩

/-- An instruction placed by `withFetchWord` is the first one the step after reset runs. -/
theorem test_fetch_word_runs :
    runsTo (State.reset.withFetchWord 16 0x42A9) 0x42 0x00 0x00 0xFD 0x34 0x0002 [] 2 = true ∧
    runsTo (State.reset.withFetchWord 24 0x123420) 0x00 0x00 0x00 0xFB 0x34 0x1234 [(0x01FD, 0x00), (0x01FC, 0x02)] 6 = true := by decide

/-! ## Memory -/

/-- A write of the unlisted byte leaves no entry; entries stay in address order; a word write wraps (R62, R63, R73). -/
theorem test_memory_canonical :
    cellsOf [(0x0300, 0x07), (0x0010, 0x01), (0x0300, 0x00)] = [(0x0010, 0x01)] ∧
    cellsOf [(0x0300, 0x07), (0x0010, 0x01)] = [(0x0010, 0x01), (0x0300, 0x07)] ∧
    Memory.writeBytes [] 0xFFFF [0x11, 0x22] = [(0x0000, 0x22), (0xFFFF, 0x11)] ∧
    Memory.wf [(0x0300, 0x07), (0x0010, 0x01)] = false := by decide

/-! ## States and operands that meet the statements' hypotheses -/

/-- The core after a reset to 0x8000, with `bytes` there: bit 5 of P set, memory canonical. -/
def sample (bytes : List Byte) : State := place 0x11 0x22 0x33 0xFD 0x34 0x8000 bytes []

/-- Frames: a flag outside the written ones for ADC, for a shift, for SetZN and for one flag; an address outside the stored one. -/
theorem witness_frames :
    Flag.i ∉ [Flag.c, .v, .z, .n] ∧ Flag.v ∉ [Flag.c, .z, .n] ∧ Flag.c ∉ [Flag.z, .n] ∧ Flag.n ∉ [Flag.c] ∧
    (0xFFFF : Addr) ∉ [effAddr (.zeroPage 0xFF) (sample [])] ∧ (0x01FC : Addr) ∉ [stackAddr 0xFD] := by decide

theorem witness_DecodeInvertsEncode :
    (Instr.iscIzy 0xFF).WellFormed ∧ (Instr.jmpAbs 0xFFFF).WellFormed ∧ Instr.brk.WellFormed := by decide

theorem witness_EncodeInvertsDecode :
    decode [0x4C, 0xFF, 0xFF, 0x02] = .ok (.jmpAbs 0xFFFF, [0x02]) ∧ decode [0xEA] = .ok (.nop, []) := ⟨rfl, rfl⟩

/-- The first, the last and one other byte of the list of R117, each the byte a step fetches. -/
theorem witness_IllegalBytesRaiseIllegalOpcode :
    (sample [0x02]).readByte (sample [0x02]).pc = 0x02 ∧ (sample [0xFC]).readByte (sample [0xFC]).pc = 0xFC ∧
    (sample [0x89]).readByte (sample [0x89]).pc = 0x89 ∧ decodeWith true 0x02 0 0 = none ∧ decodeWith true 0xFC 0 0 = none ∧
    decodeWith true 0xFF 0 0 = some (.iscAbsx 0) ∧ decodeWith false 0x83 0 0 = none ∧ decodeWith false 0xFF 0 0 = none := by
  refine ⟨by decide, by decide, by decide, rfl, rfl, rfl, rfl, rfl⟩

/-- An instruction whose second and third bytes stand at 0x0000 and 0x0001. -/
theorem witness_StepRunsTheDecodedInstruction :
    let s := place 0x00 0x00 0x00 0xFD 0x34 0xFFFF [0x4C, 0x34, 0x12] []
    decode [s.readByte s.pc, s.readByte (s.pc + 1), s.readByte (s.pc + 2)] = .ok (.jmpAbs 0x1234, []) := rfl

theorem witness_StoredEncodingRuns :
    let s := place 0x00 0x00 0x00 0xFD 0x34 0xFFFF [0x4C, 0x34, 0x12] []
    (Instr.jmpAbs 0x1234).WellFormed ∧
    ∀ (k : Nat) (b : Byte), (encode (.jmpAbs 0x1234))[k]? = some b → s.readByte (s.pc + BitVec.ofNat 16 k) = b := by
  refine ⟨by decide, fun k b h => ?_⟩
  match k, h with
  | 0, h => cases h; rfl
  | 1, h => cases h; rfl
  | 2, h => cases h; rfl

theorem witness_IllegalOpcodeChangesNothing : lookup ((sample [0x02]).readByte (sample [0x02]).pc) = none := rfl

theorem witness_DirectModesResolve : (Instr.stxZpy 0xFF).operand = .mem (.zeroPageY 0xFF) := rfl

theorem witness_IndirectPointerWrapsInItsPage : (Instr.jmpInd 0x02FF).operand = .mem (.indirect 0x02FF) := rfl

theorem witness_RelativeTargetIsSigned : (Instr.bvs 0x80).operand = .mem (.relative 0x80) := rfl

theorem witness_ImmediateOperandIsTheFetchedByte :
    (sample [0xA9, 0x42]).fetch = some (.ldaImm 0x42) ∧ (Instr.ldaImm 0x42).operand = .mem (.immediate 0x42) := ⟨rfl, rfl⟩

theorem witness_StoresWriteOneByte :
    (Instr.stxZpy 0xFF).mnemonic ∈ [Mnemonic.sta, .stx, .sty] ∧ (Instr.stxZpy 0xFF).operand = .mem (.zeroPageY 0xFF) := by decide

theorem witness_UnofficialMnemonics :
    (Instr.laxIzy 0x10).mnemonic = .lax ∧ (Instr.saxIzx 0x10).mnemonic = .sax ∧ (Instr.dcpAbsy 0x1234).mnemonic = .dcp ∧
    (Instr.iscAbsx 0x1234).mnemonic = .isc ∧ (Instr.saxIzx 0x10).operand = .mem (.indexedIndirect 0x10) := ⟨rfl, rfl, rfl, rfl, rfl⟩

theorem witness_EveryStepKeepsTheInvariant :
    (sample [0x00]).Inv ∧ ∃ t : State, step (sample [0x00]) = .next t ∧ Reaches 1 (sample [0x00]) t :=
  ⟨by decide, _, rfl, .step rfl (.refl _)⟩

theorem witness_InvariantHoldsAtReset : (cellsOf [(0xFFFC, 0x00), (0xFFFD, 0x80)]).wf = true := by decide

/-- One instruction outside each list of writers; LSR on memory among those that do not write A. -/
theorem witness_RegistersHaveOnlyTheirWriters :
    (Instr.lsrZp 0x10).mnemonic ∉ aWriters ∧ (Instr.lsrZp 0x10).operand ≠ .accumulator ∧ (Instr.txs).mnemonic ∉ xWriters ∧
    (Instr.tya).mnemonic ∉ yWriters ∧ (Instr.tsx).mnemonic ∉ spWriters := by decide

/-- An instruction outside the writers of PC, and a branch that is taken. -/
theorem witness_OnlyControlTransfersLeaveThePostFetchPc :
    (Instr.nop).mnemonic ∉ pcWriters ∧
    ∃ t : State, exec (.bne 0x80) (sample []) = .next t ∧ t.pc ≠ (sample []).pc + 2 := ⟨by decide, _, rfl, by decide⟩

/-- For every flag an instruction that does not write it. -/
theorem witness_FlagsHaveOnlyTheirWriters :
    (Instr.incZp 0x10).mnemonic ∉ flagWriters .c ∧ (Instr.clc).mnemonic ∉ flagWriters .z ∧ (Instr.php).mnemonic ∉ flagWriters .i ∧
    (Instr.brk).mnemonic ∉ flagWriters .d ∧ (Instr.brk).mnemonic ∉ flagWriters .b ∧ (Instr.cmpImm 0xFF).mnemonic ∉ flagWriters .v ∧
    (Instr.txs).mnemonic ∉ flagWriters .n := by decide

/-- Instructions that store nothing, one that stores at 0x0010, and BRK's three stack bytes. -/
theorem witness_MemoryChangesOnlyWhereStored :
    storedAddresses .aslAcc (sample []) = [] ∧ storedAddresses (.ldaZp 0x10) (sample []) = [] ∧
    storedAddresses (.aslZp 0x10) (sample []) = [0x0010] ∧ storedAddresses .brk (sample []) = [0x01FD, 0x01FC, 0x01FB] := by decide

theorem witness_DecimalFlagIsInert :
    (Instr.adcImm 0x01).mnemonic ∉ [Mnemonic.php, .brk, .plp, .rti, .cld, .sed] ∧
    (Instr.plp).mnemonic ∈ [Mnemonic.plp, .rti, .cld, .sed] ∧ (Instr.php).mnemonic ∈ [Mnemonic.php, .brk] := by decide

theorem witness_InterruptAndBreakFlagsGateNothing :
    (Instr.nop).mnemonic ∉ [Mnemonic.php, .brk, .plp, .rti, .cli, .sei] ∧ (Instr.brk).mnemonic ∉ [Mnemonic.plp, .rti] := by decide

/-- For each cycle count of the table a state whose fetched byte has it, and one whose byte has no descriptor. -/
theorem witness_StepReturnsTheTableCycleCount :
    stepResult (sample [0x09, 0x00]) = .ok 2 ∧ stepResult (sample [0xF8]) = .ok 2 ∧ stepResult (sample [0xE5, 0x00]) = .ok 3 ∧
    stepResult (sample [0xFD, 0x00, 0x00]) = .ok 4 ∧ stepResult (sample [0xF1, 0x00]) = .ok 5 ∧ stepResult (sample [0xF7, 0x00]) = .ok 6 ∧
    stepResult (sample [0x00]) = .ok 7 ∧ stepResult (sample [0xFF, 0x00, 0x00]) = .ok 7 ∧ stepResult (sample [0xF3, 0x00]) = .ok 8 ∧
    lookup ((sample [0xFC]).readByte (sample [0xFC]).pc) = none := by
  refine ⟨rfl, rfl, rfl, rfl, rfl, rfl, rfl, rfl, rfl, rfl⟩

theorem witness_MemoryReadsTheMostRecentWrite :
    Memory.wf [(0x0010, 0x01), (0xFFFF, 0x02)] = true ∧ Memory.wf (cellsOf [(0xFFFF, 0x02), (0x0010, 0x01)]) = true ∧
    cellsOf [(0xFFFF, 0x02), (0x0010, 0x01)] = [(0x0010, 0x01), (0xFFFF, 0x02)] := by decide

/-- A sequence with a launch, from a state with the invariant, and a command that is neither a step nor a poke. -/
theorem witness_HostCommandsKeepTheInvariant :
    (∀ a x y sp p pc, Command.launch a x y sp p pc ∈ [Command.reset, .launch 0 0 0 0xFF 0x20 0x8000, .step] → p[5] = true) ∧
    (sample [0xEA]).Inv ∧ Command.reset ≠ .step ∧ (∀ a v, Command.reset ≠ .poke a v) := by
  refine ⟨fun a x y sp p pc h => ?_, by decide, by decide, fun a v h => by cases h⟩
  simp only [List.mem_cons, List.not_mem_nil, or_false, reduceCtorEq, false_or] at h
  injection h with _ _ _ _ hp
  subst hp
  decide


end Sys2Proof.Tests
end

section
/-! SUPPORT. What an instruction does, field by field: one function per register and for memory, and the theorem that `exec` answers the
state they give. Later proofs speak of one field at a time and do not unfold an instruction's meaning again. -/

namespace Sys2Proof.Machine

/-- The byte an instruction works on: the memory operand M (R11), A in Accumulator mode (R98), and in Implied mode the byte a pull
returns (R226), which PLA, PLP and RTI alone use. -/
def operandByte (o : Operand) (s : State) : Byte :=
  match o with
  | .implied => s.pulledByte
  | .accumulator => s.a
  | .mem m => operandValue m s

/-- A after an instruction (R31): `v` is its operand byte; a shift or rotate writes A in Accumulator mode alone. -/
def accAfter (mn : Mnemonic) (o : Operand) (v : Byte) (s : State) : Byte :=
  match mn with
  | .lda | .pla | .lax => v
  | .txa => s.x
  | .tya => s.y
  | .adc => adderResult s.p s.a v
  | .sbc => adderResult s.p s.a (~~~v)
  | .isc => adderResult s.p s.a (~~~(v + 1))
  | .and => s.a &&& v
  | .ora => s.a ||| v
  | .eor => s.a ^^^ v
  | .asl | .lsr | .rol | .ror => if o = .accumulator then storedByte mn v s else s.a
  | _ => s.a

/-- X after an instruction (R32). -/
def xAfter (mn : Mnemonic) (v : Byte) (s : State) : Byte :=
  match mn with
  | .ldx | .lax => v
  | .tax => s.a
  | .tsx => s.sp
  | .inx => s.x + 1
  | .dex => s.x - 1
  | _ => s.x

/-- Y after an instruction (R33). -/
def yAfter (mn : Mnemonic) (v : Byte) (s : State) : Byte :=
  match mn with
  | .ldy => v
  | .tay => s.a
  | .iny => s.y + 1
  | .dey => s.y - 1
  | _ => s.y

/-- SP after an instruction (R34). -/
def spAfter (mn : Mnemonic) (s : State) : Byte :=
  match mn with
  | .txs => s.x
  | .pha | .php => s.sp - 1
  | .jsr => s.sp - 1 - 1
  | .brk => s.sp - 1 - 1 - 1
  | .pla | .plp => s.sp + 1
  | .rts => s.sp + 1 + 1
  | .rti => s.sp + 1 + 1 + 1
  | _ => s.sp

/-- P after an instruction (R37). -/
def statusAfter (mn : Mnemonic) (o : Operand) (v : Byte) (s : State) : Byte :=
  match mn with
  | .lda | .and | .ora | .eor | .pla | .txa | .tya | .lax => setZN s.p (accAfter mn o v s)
  | .ldx | .tax | .tsx | .inx | .dex => setZN s.p (xAfter mn v s)
  | .ldy | .tay | .iny | .dey => setZN s.p (yAfter mn v s)
  | .inc | .dec => setZN s.p (storedByte mn v s)
  | .asl | .rol => setCZN s.p (v.getLsbD 7) (storedByte mn v s)
  | .lsr | .ror => setCZN s.p (v.getLsbD 0) (storedByte mn v s)
  | .cmp => compareFlags s.p s.a v
  | .cpx => compareFlags s.p s.x v
  | .cpy => compareFlags s.p s.y v
  | .dcp => compareFlags s.p s.a (v - 1)
  | .adc => adderFlags s.p s.a v
  | .sbc => adderFlags s.p s.a (~~~v)
  | .isc => adderFlags s.p s.a (~~~(v + 1))
  | .bit => bitFlags s.p s.a v
  | .clc => setFlag s.p .c false
  | .sec => setFlag s.p .c true
  | .cli => setFlag s.p .i false
  | .sei | .brk => setFlag s.p .i true
  | .clv => setFlag s.p .v false
  | .cld => setFlag s.p .d false
  | .sed => setFlag s.p .d true
  | .plp | .rti => pulledStatus v
  | _ => s.p

/-- The address a jump or a taken branch goes to: the effective address (R134). -/
def targetOf (o : Operand) (s : State) : Addr :=
  match o with
  | .implied | .accumulator => s.pc
  | .mem m => effAddr m s

/-- PC past the operand bytes (R133). -/
def postFetchPc (o : Operand) (s : State) : Addr := s.pc + 1 + BitVec.ofNat 16 o.count

/-- PC after a branch (R210). -/
def branchPc (taken : Bool) (o : Operand) (s : State) : Addr := if taken then targetOf o s else postFetchPc o s

/-- PC after an instruction (R133, R134). -/
def pcAfter (mn : Mnemonic) (o : Operand) (s : State) : Addr :=
  match mn with
  | .bcc => branchPc (!s.flag .c) o s
  | .bcs => branchPc (s.flag .c) o s
  | .beq => branchPc (s.flag .z) o s
  | .bmi => branchPc (s.flag .n) o s
  | .bne => branchPc (!s.flag .z) o s
  | .bpl => branchPc (!s.flag .n) o s
  | .bvc => branchPc (!s.flag .v) o s
  | .bvs => branchPc (s.flag .v) o s
  | .jmp | .jsr => targetOf o s
  | .rts => s.pulledWord + 1
  | .rti => s.pull.pulledWord
  | .brk => s.readWord irqVector (irqVector + 1)
  | _ => postFetchPc o s

/-- A memory after the writes of a list of bus accesses, in their order. -/
def Memory.afterAccesses (m : Memory) : List BusAccess → Memory
  | [] => m
  | .read _ _ :: rest => m.afterAccesses rest
  | .write a v :: rest => (m.write a v).afterAccesses rest

/-- The state an instruction runs to, field by field; `exec_eq_stateAfter` ties it to `exec`. -/
def stateAfter (i : Instr) (s : State) : State where
  a := accAfter i.mnemonic i.operand (operandByte i.operand s) s
  x := xAfter i.mnemonic (operandByte i.operand s) s
  y := yAfter i.mnemonic (operandByte i.operand s) s
  sp := spAfter i.mnemonic s
  p := statusAfter i.mnemonic i.operand (operandByte i.operand s) s
  pc := pcAfter i.mnemonic i.operand s
  mem := s.mem.afterAccesses (handlerAccesses i s)

/-- No write to the stack reaches an address outside page 1 (R34, R71). -/
theorem Memory.read_write_stack (m : Memory) (sp v : Byte) {a : Addr} (ha : 512 ≤ a.toNat) :
    (m.write (stackAddr sp) v).read a = m.read a := by
  refine Memory.read_write_other m v fun h => ?_
  have := (stackAddr_range sp).2
  rw [h] at ha
  omega

/-- JSR's return address, one byte before the next instruction, is pc0 + 2 (R228). -/
theorem exec_jsr_eq_stateAfter (a : Addr) (s : State) : exec (.jsr a) s = .next (stateAfter (.jsr a) s) := by
  have hpc : s.pc + 1 + BitVec.ofNat 16 2 - 1 = s.pc + 2 := by bv_omega
  change Host.Outcome.next (((s.advance 2).pushWord (s.pc + 1 + BitVec.ofNat 16 2 - 1)).setPc a) = _
  rw [hpc]
  rfl

/-- The three pushes of an interrupt leave its vector as it was. -/
theorem State.readWord_irqVector_pushed (s : State) (r : Addr) (v : Byte) :
    ((s.pushWord r).push v).readWord irqVector (irqVector + 1) = s.readWord irqVector (irqVector + 1) := by
  simp [State.pushWord, irqVector, Memory.read_write_stack]

/-- BRK pushes pc0 + 2, and its vector lies outside the stack it pushes to (R234, R272). -/
theorem exec_brk_eq_stateAfter (s : State) : exec .brk s = .next (stateAfter .brk s) := by
  have hpc : s.pc + 1 + BitVec.ofNat 16 0 + 1 = s.pc + 2 := by bv_omega
  have hsp : stackAddr (s.sp - 1 - 1) = stackAddr (s.sp - 2) := congrArg stackAddr (by bv_omega)
  have hexec : exec .brk s = .next ((s.advance 0).takeInterrupt (s.pc + 1 + BitVec.ofNat 16 0 + 1)) := rfl
  rw [hexec, hpc, State.takeInterrupt_eq, State.readWord_irqVector_pushed, State.advance_sp, hsp]
  rfl

/-- A branch changes PC alone (R210). -/
theorem branch_eq (taken : Bool) (off : Byte) (s : State) :
    branch taken off s = .next { s with pc := branchPc taken (.mem (.relative off)) s } := by
  cases taken <;> rfl

/-- Every instruction runs to its `stateAfter`: by unfolding its row, but for JSR and BRK, whose pushed address the model computes
from the advanced PC, and the branches, which split on their condition. -/
theorem exec_eq_stateAfter (i : Instr) (s : State) : exec i s = .next (stateAfter i s) := by
  cases i
  case jsr a => exact exec_jsr_eq_stateAfter a s
  case brk => exact exec_brk_eq_stateAfter s
  case bcc off | bcs off | beq off | bmi off | bne off | bpl off | bvc off | bvs off => exact branch_eq _ off s
  all_goals rfl

end Sys2Proof.Machine
end

section
/-! Which flags each flag computation keeps, and the flag primitives. -/

namespace Sys2Proof.Machine

/-! ## Which flags a flag computation keeps -/

theorem FlagsKeptExcept.refl (p : Byte) : FlagsKeptExcept p p [] := ⟨rfl, fun _ _ => rfl⟩

theorem FlagsKeptExcept.mono {p q : Byte} {fs gs : List Flag} (h : FlagsKeptExcept p q fs) (hsub : fs ⊆ gs) :
    FlagsKeptExcept p q gs := ⟨h.1, fun f hf => h.2 f fun hmem => hf (hsub hmem)⟩

/-- One more flag write adds its flag to those not kept. -/
theorem FlagsKeptExcept.setFlag {p q : Byte} {fs : List Flag} (h : FlagsKeptExcept p q fs) (f : Flag) (on : Bool) :
    FlagsKeptExcept p (setFlag q f on) (f :: fs) := by
  refine ⟨(bit5_setFlag q f on).trans h.1, fun g hg => ?_⟩
  obtain ⟨hgf, hgs⟩ := List.ne_and_not_mem_of_not_mem_cons hg
  rw [getFlag_setFlag, if_neg hgf, h.2 g hgs]

theorem flagsKept_setFlag (p : Byte) (f : Flag) (on : Bool) : FlagsKeptExcept p (setFlag p f on) [f] :=
  (FlagsKeptExcept.refl p).setFlag f on

theorem flagsKept_setZN (p v : Byte) : FlagsKeptExcept p (setZN p v) [.n, .z] :=
  (flagsKept_setFlag p .z _).setFlag .n _

theorem flagsKept_setCZN (p : Byte) (carry : Bool) (r : Byte) : FlagsKeptExcept p (setCZN p carry r) [.n, .z, .c] :=
  ((flagsKept_setFlag p .c _).setFlag .z _).setFlag .n _

theorem flagsKept_adderFlags (p a b : Byte) : FlagsKeptExcept p (adderFlags p a b) [.n, .z, .v, .c] :=
  (((flagsKept_setFlag p .c _).setFlag .v _).setFlag .z _).setFlag .n _

theorem flagsKept_bitFlags (p a v : Byte) : FlagsKeptExcept p (bitFlags p a v) [.v, .n, .z] :=
  ((flagsKept_setFlag p .z _).setFlag .n _).setFlag .v _

/-- `SetZN` answers Z and N of its byte (R42). -/
theorem ZNOf_setZN (p v : Byte) : ZNOf (setZN p v) v := by
  have hsign : v[7] = decide (128 ≤ v.toNat) := (BitVec.msb_eq_getLsbD_last v).symm.trans v.msb_eq_decide
  constructor
  · simp
  · simp [hsign]

/-- Settles O9: the accessors by definition, the frames by the flags each write keeps. -/
theorem flagPrimitivesWriteTheirBits : Obligations.FlagPrimitivesWriteTheirBits := by
  refine ⟨fun p => ⟨rfl, rfl, rfl, rfl, rfl, rfl, rfl⟩, fun p f on => ⟨?_, flagsKept_setFlag p f on⟩, fun p v => ⟨ZNOf_setZN p v, ?_⟩⟩
  · rw [getFlag_setFlag, if_pos rfl]
  · exact (flagsKept_setZN p v).mono (by decide)

end Sys2Proof.Machine
end

section
/-! Which fields an instruction leaves as they were: bit 5 of P, the flags, A, X, Y and SP. -/

namespace Sys2Proof.Machine

/-! ## P after an instruction -/

/-- The flags whose writers in R37 list the mnemonic. -/
def flagsWrittenBy (mn : Mnemonic) : List Flag := [Flag.c, .z, .i, .d, .b, .v, .n].filter (fun f => mn ∈ flagWriters f)

theorem mem_flagsWrittenBy {mn : Mnemonic} {f : Flag} : f ∈ flagsWrittenBy mn ↔ mn ∈ flagWriters f := by
  have hall : f ∈ [Flag.c, .z, .i, .d, .b, .v, .n] := by cases f <;> decide
  simp only [flagsWrittenBy, List.mem_filter, hall, true_and, decide_eq_true_eq]

/-- The pulls of P write every flag. -/
theorem pull_mem_flagWriters {mn : Mnemonic} (h : mn = .plp ∨ mn = .rti) (f : Flag) : mn ∈ flagWriters f := by
  obtain rfl | rfl := h <;> cases f <;> decide

/-- Apart from the pulls of P, an instruction keeps bit 5 and every flag that does not list it (R37, R41, R51). -/
theorem statusAfter_keeps {mn : Mnemonic} (h : ¬(mn = .plp ∨ mn = .rti)) (o : Operand) (v : Byte) (s : State) :
    FlagsKeptExcept s.p (statusAfter mn o v s) (flagsWrittenBy mn) := by
  cases mn with
  | plp | rti => exact absurd (by decide) h
  | clc | sec | cli | sei | brk | clv | cld | sed => exact (flagsKept_setFlag _ _ _).mono (by decide)
  | lda | ldx | ldy | and | ora | eor | inc | dec | inx | dex | iny | dey | pla | tax | tay | tsx | txa | tya | lax =>
    exact (flagsKept_setZN _ _).mono (by decide)
  | asl | lsr | rol | ror | cmp | cpx | cpy | dcp => exact (flagsKept_setCZN _ _ _).mono (by decide)
  | adc | sbc | isc => exact (flagsKept_adderFlags _ _ _).mono (by decide)
  | bit => exact (flagsKept_bitFlags _ _ _).mono (by decide)
  | _ => exact (FlagsKeptExcept.refl _).mono (List.nil_subset _)

theorem getFlag_statusAfter {mn : Mnemonic} {f : Flag} (hw : mn ∉ flagWriters f) (o : Operand) (v : Byte) (s : State) :
    getFlag (statusAfter mn o v s) f = getFlag s.p f :=
  (statusAfter_keeps (fun h => hw (pull_mem_flagWriters h f)) o v s).2 f (fun h => hw (mem_flagsWrittenBy.mp h))

/-- Bit 5 of P: forced by the pulls of P, kept by the rest (R51). -/
theorem bit5_statusAfter (mn : Mnemonic) (o : Operand) (v : Byte) (s : State) :
    (statusAfter mn o v s)[5] = if mn = .plp ∨ mn = .rti then true else s.p[5] := by
  split
  · next h => obtain rfl | rfl := h <;> exact bit5_pulledStatus v
  · next h => exact (statusAfter_keeps h o v s).1

/-! ## A, X, Y and SP after an instruction -/

theorem accAfter_of_not_writer {mn : Mnemonic} {o : Operand} (hw : mn ∉ aWriters) (ho : o ≠ .accumulator) (v : Byte) (s : State) :
    accAfter mn o v s = s.a := by
  cases mn with
  | lda | pla | txa | tya | adc | sbc | and | ora | eor | lax | isc => exact absurd (by decide) hw
  | asl | lsr | rol | ror => exact if_neg ho
  | _ => rfl

theorem xAfter_of_not_writer {mn : Mnemonic} (hw : mn ∉ xWriters) (v : Byte) (s : State) : xAfter mn v s = s.x := by
  cases mn with
  | ldx | tax | tsx | inx | dex | lax => exact absurd (by decide) hw
  | _ => rfl

theorem yAfter_of_not_writer {mn : Mnemonic} (hw : mn ∉ yWriters) (v : Byte) (s : State) : yAfter mn v s = s.y := by
  cases mn with
  | ldy | tay | iny | dey => exact absurd (by decide) hw
  | _ => rfl

theorem spAfter_of_not_writer {mn : Mnemonic} (hw : mn ∉ spWriters) (s : State) : spAfter mn s = s.sp := by
  cases mn with
  | txs | jsr | rts | pha | php | pla | plp | brk | rti => exact absurd (by decide) hw
  | _ => rfl

/-! ## The statements -/

/-- P at power-on has bit 5 set (R50, R51). -/
theorem bit5_powerOn (image : Memory) : (State.powerOn image).p[5] = true := by
  change (0x34 : Byte)[5] = true
  decide

/-- Settles O49, from bit 5 of `statusAfter`. -/
theorem statusBitFiveIsKeptOrForced : Obligations.StatusBitFiveIsKeptOrForced :=
  ⟨rfl, bit5_powerOn, fun i s => ⟨stateAfter i s, exec_eq_stateAfter i s, bit5_statusAfter ..⟩⟩

/-- Settles O50, register by register. -/
theorem registersHaveOnlyTheirWriters : Obligations.RegistersHaveOnlyTheirWriters := fun i s =>
  ⟨stateAfter i s, exec_eq_stateAfter i s, fun ha ho => accAfter_of_not_writer ha ho _ s, fun hx => xAfter_of_not_writer hx _ s,
    fun hy => yAfter_of_not_writer hy _ s, fun hsp => spAfter_of_not_writer hsp s⟩

/-- Settles O52, from the flags `statusAfter` keeps. -/
theorem flagsHaveOnlyTheirWriters : Obligations.FlagsHaveOnlyTheirWriters := fun i s =>
  ⟨stateAfter i s, exec_eq_stateAfter i s, fun _ hw => getFlag_statusAfter hw ..⟩

end Sys2Proof.Machine
end

section
/-! The invariant, at power-on and along steps and runs; power-on and the reset command. -/

namespace Sys2Proof.Machine

/-! ## The invariant along steps and runs -/

theorem Memory.wf_afterAccesses (accesses : List BusAccess) {m : Memory} (h : m.wf = true) :
    (m.afterAccesses accesses).wf = true := by
  induction accesses generalizing m with
  | nil => exact h
  | cons access rest ih =>
    cases access with
    | read a v => exact ih h
    | write a v => exact ih (Memory.wf_write a v h)

theorem stateAfter_inv (i : Instr) {s : State} (h : s.Inv) : (stateAfter i s).Inv := by
  obtain ⟨hbit5, hwf⟩ := h
  refine ⟨?_, Memory.wf_afterAccesses _ hwf⟩
  have hkept : (stateAfter i s).p[5] = if i.mnemonic = .plp ∨ i.mnemonic = .rti then true else s.p[5] := bit5_statusAfter ..
  rw [State.Bit5Set, hkept, hbit5, ite_self]

/-- A step that answers a next state ran some instruction. -/
theorem step_next {s t : State} (h : step s = .next t) : ∃ i, s.fetch = some i ∧ t = stateAfter i s := by
  unfold step at h
  split at h
  · cases h
  · next i hfetch =>
    rw [exec_eq_stateAfter] at h
    cases h
    exact ⟨i, hfetch, rfl⟩

theorem step_inv {s t : State} (hs : s.Inv) (h : step s = .next t) : t.Inv := by
  obtain ⟨i, -, rfl⟩ := step_next h
  exact stateAfter_inv i hs

theorem Reaches.inv {n : Nat} {s t : State} (h : Reaches n s t) (hs : s.Inv) : t.Inv := by
  induction h with
  | refl s => exact hs
  | step hstep _ ih => exact ih (step_inv hs hstep)

/-! ## The statements -/

/-- Settles O47: every next state of a step is a `stateAfter`, which keeps the invariant; runs by induction. -/
theorem everyStepKeepsTheInvariant : Obligations.EveryStepKeepsTheInvariant :=
  ⟨fun _ _ => step_inv, fun _ _ _ hs h => h.inv hs⟩

/-- Settles O48; both states have P = 0x34. -/
theorem invariantHoldsAtReset : Obligations.InvariantHoldsAtReset :=
  ⟨⟨rfl, reset_mem_wf⟩, fun image hwf => ⟨bit5_powerOn image, hwf⟩, rfl⟩

/-- A word's number from those of its bytes (R8, R65). -/
theorem toNat_joinBytes (h l : Byte) : (joinBytes h l).toNat = 256 * h.toNat + l.toNat := by
  rw [joinBytes, BitVec.toNat_append, ← Nat.shiftLeft_add_eq_or_of_lt l.isLt, Nat.shiftLeft_eq, Nat.mul_comm]

/-- Settles O58; the reset vector is read as a little-endian word. -/
theorem powerOnAndResetState : Obligations.PowerOnAndResetState :=
  ⟨fun _ => rfl, fun s => ⟨s.resetCommand, rfl, rfl, toNat_joinBytes .., rfl, rfl⟩⟩

end Sys2Proof.Machine
end

section
/-! I, D and B gate nothing: an instruction that neither writes nor pushes such a flag commutes with setting it. -/

namespace Sys2Proof.Machine

/-! ## Setting a flag that nothing computes -/

/-- The flags that no computation of the core reads or writes: I, D and B (R39, R160, R275). -/
def Flag.isInert : Flag → Bool
  | .i | .d | .b => true
  | .c | .z | .v | .n => false

theorem Flag.ne_of_isInert {f g : Flag} (hf : f.isInert = true) (hg : g.isInert = false) : f ≠ g := by
  rintro rfl
  exact absurd (hf.symm.trans hg) (by decide)

theorem ne_of_not_writer {mn : Mnemonic} {f g : Flag} (hf : mn ∉ flagWriters f) (hg : mn ∈ flagWriters g) : f ≠ g := by
  rintro rfl
  exact hf hg

theorem setFlag_comm (p : Byte) {f g : Flag} (h : f ≠ g) (x y : Bool) :
    setFlag (setFlag p f x) g y = setFlag (setFlag p g y) f x := by
  refine status_ext (fun k => ?_) (by simp only [bit5_setFlag])
  simp only [getFlag_setFlag]
  by_cases hk : k = f
  · rw [if_pos hk, if_neg (hk ▸ h), if_pos hk]
  · rw [if_neg hk, if_neg hk]

theorem setFlag_setFlag_same (p : Byte) (f : Flag) (x y : Bool) : setFlag (setFlag p f x) f y = setFlag p f y := by
  refine status_ext (fun k => ?_) (by simp only [bit5_setFlag])
  simp only [getFlag_setFlag]
  split <;> rfl

/-- The copy of P that PHP and BRK push has bit 4 set whatever B holds (R39, R231, R234). -/
theorem pushedStatus_setFlag_b (p : Byte) (on : Bool) : pushedStatus (setFlag p .b on) = pushedStatus p := by
  have hset (q : Byte) : pushedStatus q = setFlag q .b true := rfl
  rw [hset, hset, setFlag_setFlag_same]

section
variable {f : Flag} (hf : f.isInert = true)
include hf

theorem getFlag_setFlag_of_isInert {g : Flag} (hg : g.isInert = false) (p : Byte) (on : Bool) :
    getFlag (setFlag p f on) g = getFlag p g := by
  rw [getFlag_setFlag, if_neg (Flag.ne_of_isInert hf hg).symm]

theorem flag_putFlag_of_isInert {g : Flag} (hg : g.isInert = false) (s : State) (on : Bool) :
    (s.putFlag f on).flag g = s.flag g := getFlag_setFlag_of_isInert hf hg s.p on

theorem setFlag_comm_of_isInert {g : Flag} (hg : g.isInert = false) (p : Byte) (on x : Bool) :
    setFlag (setFlag p f on) g x = setFlag (setFlag p g x) f on := setFlag_comm p (Flag.ne_of_isInert hf hg) on x

theorem setZN_setFlag (p v : Byte) (on : Bool) : setZN (setFlag p f on) v = setFlag (setZN p v) f on := by
  rw [setZN, setFlag_comm_of_isInert hf rfl, setFlag_comm_of_isInert hf rfl, setZN]

theorem setCZN_setFlag (p : Byte) (carry : Bool) (r : Byte) (on : Bool) :
    setCZN (setFlag p f on) carry r = setFlag (setCZN p carry r) f on := by
  rw [setCZN, setFlag_comm_of_isInert hf rfl, setZN_setFlag hf, setCZN]

theorem bitFlags_setFlag (p a v : Byte) (on : Bool) : bitFlags (setFlag p f on) a v = setFlag (bitFlags p a v) f on := by
  rw [bitFlags, setFlag_comm_of_isInert hf rfl, setFlag_comm_of_isInert hf rfl, setFlag_comm_of_isInert hf rfl, bitFlags]

theorem flagNat_setFlag (p : Byte) (on : Bool) : flagNat (setFlag p f on) .c = flagNat p .c :=
  congrArg Bool.toNat (getFlag_setFlag_of_isInert hf rfl p on)

theorem adderSum_setFlag (p a b : Byte) (on : Bool) : adderSum (setFlag p f on) a b = adderSum p a b := by
  rw [adderSum, flagNat_setFlag hf, adderSum]

theorem adderResult_setFlag (p a b : Byte) (on : Bool) : adderResult (setFlag p f on) a b = adderResult p a b :=
  congrArg (BitVec.ofNat 8) (adderSum_setFlag hf p a b on)

theorem adderFlags_setFlag (p a b : Byte) (on : Bool) :
    adderFlags (setFlag p f on) a b = setFlag (adderFlags p a b) f on := by
  have hcarry : adderCarry (setFlag p f on) a b = adderCarry p a b := by
    rw [adderCarry, adderSum_setFlag hf, adderCarry]
  have hoverflow : adderOverflow (setFlag p f on) a b = adderOverflow p a b := by
    rw [adderOverflow, adderSigned, flagNat_setFlag hf, adderOverflow, adderSigned]
  rw [adderFlags, hcarry, hoverflow, adderResult_setFlag hf, setFlag_comm_of_isInert hf rfl, setFlag_comm_of_isInert hf rfl,
    setZN_setFlag hf, adderFlags]

/-! ### The fields after an instruction that starts with such a flag set -/

theorem storedByte_putFlag (mn : Mnemonic) (v : Byte) (s : State) (on : Bool) :
    storedByte mn v (s.putFlag f on) = storedByte mn v s := by
  cases mn with
  | rol | ror => rw [storedByte, flag_putFlag_of_isInert hf rfl, storedByte]
  | _ => rfl

theorem accAfter_putFlag (mn : Mnemonic) (o : Operand) (v : Byte) (s : State) (on : Bool) :
    accAfter mn o v (s.putFlag f on) = accAfter mn o v s := by
  cases mn with
  | adc | sbc | isc => exact adderResult_setFlag hf _ _ _ _
  | asl | lsr | rol | ror => simp only [accAfter, storedByte_putFlag hf, State.putFlag_a]
  | _ => rfl

theorem statusAfter_putFlag {mn : Mnemonic} (hw : mn ∉ flagWriters f) (o : Operand) (v : Byte) (s : State) (on : Bool) :
    statusAfter mn o v (s.putFlag f on) = setFlag (statusAfter mn o v s) f on := by
  cases mn with
  | plp | rti => exact absurd (pull_mem_flagWriters (by decide) f) hw
  | cli | sei | brk | cld | sed => exact setFlag_comm _ (ne_of_not_writer hw (by decide)) _ _
  | clc | sec | clv => exact setFlag_comm_of_isInert hf rfl _ _ _
  | lda | ldx | ldy | and | ora | eor | inc | dec | inx | dex | iny | dey | pla | tax | tay | tsx | txa | tya | lax =>
    exact setZN_setFlag hf _ _ _
  | asl | lsr | rol | ror =>
    simp only [statusAfter, storedByte_putFlag hf, State.putFlag_p, setCZN_setFlag hf]
  | cmp | cpx | cpy | dcp => exact setCZN_setFlag hf _ _ _ _
  | adc | sbc | isc => exact adderFlags_setFlag hf _ _ _ _
  | bit => exact bitFlags_setFlag hf _ _ _ _
  | _ => rfl

theorem pcAfter_putFlag (mn : Mnemonic) (o : Operand) (s : State) (on : Bool) :
    pcAfter mn o (s.putFlag f on) = pcAfter mn o s := by
  cases mn with
  | bcc | bcs | beq | bmi | bne | bpl | bvc | bvs =>
    rw [pcAfter, flag_putFlag_of_isInert hf rfl]
    rfl
  | _ => rfl

theorem handlerAccesses_putFlag {i : Instr} {s : State} {on : Bool}
    (hpush : i.mnemonic ∈ [.php, .brk] → pushedStatus (setFlag s.p f on) = pushedStatus s.p) :
    handlerAccesses i (s.putFlag f on) = handlerAccesses i s := by
  unfold handlerAccesses
  split
  · rfl
  · simp only [storedByte_putFlag hf]
    rfl
  · generalize i.mnemonic = mn at hpush
    cases mn with
    | php | brk => simp only [breakAccesses, State.putFlag_p, hpush (by decide)]; rfl
    | _ => rfl

/-- Setting I, D or B before an instruction that neither writes nor pushes it is setting it after (R39, R275). -/
theorem stateAfter_putFlag {i : Instr} {s : State} {on : Bool} (hw : i.mnemonic ∉ flagWriters f)
    (hpush : i.mnemonic ∈ [.php, .brk] → pushedStatus (setFlag s.p f on) = pushedStatus s.p) :
    stateAfter i (s.putFlag f on) = (stateAfter i s).putFlag f on := by
  refine State.ext_fields ?acc rfl rfl rfl ?status ?pc ?mem
  case acc => exact accAfter_putFlag hf ..
  case status => exact statusAfter_putFlag hf hw ..
  case pc => exact pcAfter_putFlag hf ..
  case mem => exact congrArg s.mem.afterAccesses (handlerAccesses_putFlag hf hpush)

theorem exec_putFlag {i : Instr} {s : State} {on : Bool} (hw : i.mnemonic ∉ flagWriters f)
    (hpush : i.mnemonic ∈ [.php, .brk] → pushedStatus (setFlag s.p f on) = pushedStatus s.p) :
    exec i (s.putFlag f on) = onNext (fun t => t.putFlag f on) (exec i s) := by
  rw [exec_eq_stateAfter, exec_eq_stateAfter, stateAfter_putFlag hf hw hpush, onNext]

end

/-- BRK is taken whatever I holds: only the pushed status byte can differ (R272, R275). -/
theorem stateAfter_brk_putFlag_i (s : State) (on : Bool) :
    stateAfter .brk (s.putFlag .i on) = { stateAfter .brk s with mem := (stateAfter .brk (s.putFlag .i on)).mem } :=
  State.ext_fields rfl rfl rfl rfl (setFlag_setFlag_same s.p .i on true) rfl rfl

/-- Settles O55: I and B are read by no field of `stateAfter`, and the pushed copy of P has bit 4 set whatever B holds. -/
theorem interruptAndBreakFlagsGateNothing : Obligations.InterruptAndBreakFlagsGateNothing := by
  intro i s on
  refine ⟨fun h => ?_, ?_, fun h => ?_⟩
  · have hwriters : flagWriters .i ⊆ [.php, .brk, .plp, .rti, .cli, .sei] := by decide
    have hpushers : [Mnemonic.php, .brk] ⊆ [.php, .brk, .plp, .rti, .cli, .sei] := by decide
    exact exec_putFlag rfl (fun hw => h (hwriters hw)) (fun hpush => absurd (hpushers hpush) h)
  · exact ⟨_, _, exec_eq_stateAfter .brk s, exec_eq_stateAfter .brk _, stateAfter_brk_putFlag_i s on⟩
  · exact exec_putFlag rfl h (fun _ => pushedStatus_setFlag_b s.p on)

end Sys2Proof.Machine
end

section
/-! Memory behind the bus: a read gives the most recent write, and a canonical list is determined by what it reads as. -/

namespace Sys2Proof.Machine

/-! ## A read after any writes -/

/-- After writes in a row a read gives the last one made at its address, or the byte from before (R62). -/
theorem Memory.read_foldl_write (writes : List (Addr × Byte)) (m : Memory) (a : Addr) :
    (writes.foldl (fun acc w => acc.write w.1 w.2) m).read a =
      ((writes.reverse.find? (fun w => w.1 == a)).map Prod.snd).getD (m.read a) := by
  induction writes using List.reverseRecOn with
  | nil => rfl
  | append_singleton earlier last ih =>
    rw [List.foldl_concat, Memory.read_write, List.reverse_concat, List.find?_cons]
    by_cases h : last.1 = a
    · simp [h]
    · have hlast : (last.1 == a) = false := beq_false_of_ne h
      simp [hlast, Ne.symm h, ih]

/-! ## The canonical form is unique -/

theorem Memory.find_cons (k : Nat) (v : Byte) (rest : Memory) (a : Nat) :
    Memory.find ((k, v) :: rest) a = if k = a then v else rest.find a := rfl

theorem Memory.wfFrom_cons {low k : Nat} {v : Byte} {rest : Memory} :
    Memory.wfFrom low ((k, v) :: rest) = true ↔
      low ≤ k ∧ k < 65536 ∧ v ≠ Config.unlistedByte ∧ Memory.wfFrom (k + 1) rest = true := by
  simp only [Memory.wfFrom, Bool.and_eq_true, decide_eq_true_eq, bne_iff_ne, and_assoc]

/-- The byte a canonical list puts first is seen by a read, so a list that reads alike lists that address or a lower one. -/
theorem Memory.not_wfFrom_above_head {low k : Nat} {v : Byte} {rest m : Memory} (h : Memory.wfFrom low ((k, v) :: rest) = true)
    (hfind : ∀ a < 65536, Memory.find ((k, v) :: rest) a = m.find a) : ¬ Memory.wfFrom (k + 1) m = true := by
  intro habove
  obtain ⟨-, hk, hv, -⟩ := Memory.wfFrom_cons.mp h
  refine hv ?_
  calc v = Memory.find ((k, v) :: rest) k := (if_pos rfl).symm
    _ = m.find k := hfind k hk
    _ = Config.unlistedByte := Memory.find_below habove (Nat.lt_succ_self k)

/-- Of two canonical lists that read alike, the second does not begin above the first. -/
theorem Memory.head_le_of_find_eq {low k k' : Nat} {v v' : Byte} {rest rest' : Memory}
    (h : Memory.wfFrom low ((k, v) :: rest) = true) (h' : Memory.wfFrom low ((k', v') :: rest') = true)
    (hfind : ∀ a < 65536, Memory.find ((k, v) :: rest) a = Memory.find ((k', v') :: rest') a) : k' ≤ k := by
  obtain ⟨-, htail'⟩ := Memory.wfFrom_cons.mp h'
  exact Nat.le_of_not_lt fun hlt => Memory.not_wfFrom_above_head h hfind (Memory.wfFrom_cons.mpr ⟨hlt, htail'⟩)

/-- Two canonical lists that read alike are equal. -/
theorem Memory.eq_of_find_eq {low : Nat} {m m' : Memory} (h : Memory.wfFrom low m = true) (h' : Memory.wfFrom low m' = true)
    (hfind : ∀ a < 65536, m.find a = m'.find a) : m = m' := by
  induction m generalizing low m' with
  | nil =>
    cases m' with
    | nil => rfl
    | cons c rest => exact absurd rfl (Memory.not_wfFrom_above_head h' fun a ha => (hfind a ha).symm)
  | cons c rest ih =>
    cases m' with
    | nil => exact absurd rfl (Memory.not_wfFrom_above_head h hfind)
    | cons c' rest' =>
      obtain ⟨k, v⟩ := c
      obtain ⟨k', v'⟩ := c'
      obtain rfl : k = k' :=
        Nat.le_antisymm (Memory.head_le_of_find_eq h' h fun a ha => (hfind a ha).symm) (Memory.head_le_of_find_eq h h' hfind)
      obtain ⟨-, hk, -, htail⟩ := Memory.wfFrom_cons.mp h
      obtain ⟨-, -, -, htail'⟩ := Memory.wfFrom_cons.mp h'
      have hv : v = v' := by simpa only [Memory.find_cons, if_true] using hfind k hk
      have hrest : rest = rest' := ih htail htail' fun a ha => by
        by_cases hka : k = a
        · rw [Memory.find_below htail (by omega), Memory.find_below htail' (by omega)]
        · simpa only [Memory.find_cons, if_neg hka] using hfind a ha
      rw [hv, hrest]

theorem Memory.eq_of_read_eq {m m' : Memory} (h : m.wf = true) (h' : m'.wf = true) (hread : ∀ a : Addr, m.read a = m'.read a) :
    m = m' :=
  Memory.eq_of_find_eq h h' fun a ha => by simpa [Memory.read, Nat.mod_eq_of_lt ha] using hread (BitVec.ofNat 16 a)

/-- Settles O59: the last write by induction from the end of the sequence, and uniqueness entry by entry. -/
theorem memoryReadsTheMostRecentWrite : Obligations.MemoryReadsTheMostRecentWrite := by
  refine ⟨fun writes m a => ?_, fun m a v h => Memory.wf_write a v h, fun m m' h h' => Memory.eq_of_read_eq h h'⟩
  rw [Memory.read_foldl_write]
  cases writes.reverse.find? (fun w => w.1 == a) <;> rfl

end Sys2Proof.Machine
end

section
/-! What a step does to memory: the writes of its handler and nothing else, and the bus accesses listed for it. -/

namespace Sys2Proof.Machine

/-! ## The addresses written -/

/-- The address a bus access writes, if it is a write. -/
def BusAccess.writtenAddr? : BusAccess → Option Addr
  | .read _ _ => none
  | .write a _ => some a

/-- Writes change no byte but those at their addresses. -/
theorem Memory.read_afterAccesses {accesses : List BusAccess} {a : Addr} (m : Memory)
    (ha : a ∉ accesses.filterMap BusAccess.writtenAddr?) : (m.afterAccesses accesses).read a = m.read a := by
  induction accesses generalizing m with
  | nil => rfl
  | cons access rest ih =>
    cases access with
    | read b v => exact ih m ha
    | write b v =>
      obtain ⟨hab, hrest⟩ := List.ne_and_not_mem_of_not_mem_cons ha
      exact (ih (m.write b v) hrest).trans (Memory.read_write_other m v hab)

/-- Accesses that write nowhere leave the list of bytes itself. -/
theorem Memory.afterAccesses_of_no_write {accesses : List BusAccess} (m : Memory)
    (h : accesses.filterMap BusAccess.writtenAddr? = []) : m.afterAccesses accesses = m := by
  induction accesses with
  | nil => rfl
  | cons access rest ih =>
    cases access with
    | read b v => exact ih h
    | write b v => exact absurd h (List.cons_ne_nil _ _)

/-- An operand is written at its effective address by the store and read-modify-write classes alone (R138). -/
theorem writtenAddrs_operandAccesses (m : MemOperand) (c : AccessClass) (stored : Byte) (s : State) :
    (operandAccesses m c stored s).filterMap BusAccess.writtenAddr? =
      if c = .store ∨ c = .readModifyWrite then [effAddr m s] else [] := by
  cases c <;> rfl

/-- The handler writes the addresses of `storedAddresses`, in that order. -/
theorem writtenAddrs_handlerAccesses (i : Instr) (s : State) :
    (handlerAccesses i s).filterMap BusAccess.writtenAddr? = storedAddresses i s := by
  unfold handlerAccesses storedAddresses
  cases i.operand with
  | accumulator => rfl
  | implied => cases i.mnemonic <;> rfl
  | mem m =>
    by_cases hjsr : i.mnemonic = .jsr
    · simp only [hjsr, if_true]
      rfl
    · simp only [hjsr, if_false, writtenAddrs_operandAccesses]

/-- Settles O53: memory after an instruction is memory after its handler's writes. -/
theorem memoryChangesOnlyWhereStored : Obligations.MemoryChangesOnlyWhereStored := by
  intro i s
  refine ⟨stateAfter i s, exec_eq_stateAfter i s, fun a ha => ?_, fun hnone => ?_⟩
  · exact Memory.read_afterAccesses s.mem (by rwa [writtenAddrs_handlerAccesses])
  · exact Memory.afterAccesses_of_no_write s.mem (by rwa [writtenAddrs_handlerAccesses])

/-! ## The accesses listed for a step -/

/-- A read listed with the byte memory holds is answered. -/
theorem replay_seen_cons (s : State) (a : Addr) (rest : List BusAccess) : replay (s.seen a :: rest) s.mem = replay rest s.mem :=
  if_pos rfl

/-- The resolver's reads are answered and change nothing (R62, R96). -/
theorem replay_resolverReads_append (o : Operand) (s : State) (rest : List BusAccess) :
    replay (resolverReads o s ++ rest) s.mem = replay rest s.mem := by
  cases o with
  | implied | accumulator => rfl
  | mem m => cases m <;> simp only [resolverReads, List.cons_append, List.nil_append, replay_seen_cons]

/-- The operand's read is answered, since it comes before the write (R69, R138). -/
theorem replay_operandAccesses (m : MemOperand) (c : AccessClass) (stored : Byte) (s : State) :
    replay (operandAccesses m c stored s) s.mem = some (s.mem.afterAccesses (operandAccesses m c stored s)) := by
  cases c with
  | read | readModifyWrite => exact replay_seen_cons ..
  | store | register | stack | control => rfl

/-- BRK's vector reads are answered from memory before its pushes, which lie in page 1 (R71, R234). -/
theorem replay_breakAccesses (s : State) :
    replay (breakAccesses s) s.mem = some (s.mem.afterAccesses (breakAccesses s)) := by
  simp [breakAccesses, replay, State.seen, Memory.afterAccesses, Memory.read_write_stack]

/-- The handler's reads are answered, and its writes leave the memory `stateAfter` gives. -/
theorem replay_handlerAccesses (i : Instr) (s : State) :
    replay (handlerAccesses i s) s.mem = some (stateAfter i s).mem := by
  change _ = some (s.mem.afterAccesses (handlerAccesses i s))
  unfold handlerAccesses
  cases i.operand with
  | accumulator => rfl
  | implied =>
    cases i.mnemonic with
    | pla | plp | rts | rti => simp only [replay_seen_cons]; rfl
    | brk => exact replay_breakAccesses s
    | _ => rfl
  | mem m =>
    by_cases hjsr : i.mnemonic = .jsr
    · simp only [hjsr, if_true]
      rfl
    · simp only [hjsr, if_false, replay_operandAccesses]

/-- Settles O56: the opcode's and the resolver's reads change nothing, and the handler's accesses end in the memory after the step. -/
theorem busAccessesAccountForTheStep : Obligations.BusAccessesAccountForTheStep := by
  intro s
  rw [busAccesses, replay_seen_cons, State.afterStep, step]
  cases s.fetch with
  | none => rfl
  | some i => simp only [replay_resolverReads_append, replay_handlerAccesses, exec_eq_stateAfter]

end Sys2Proof.Machine
end

section
/-! The decoder on the bytes of an encoding, and the step where they lie at PC. -/

namespace Sys2Proof.Machine

/-- Two bytes that hold an address, low byte first, give it back (R65, R91). -/
theorem build_address (mk : Addr → Instr) (a : Addr) : (Form.address mk).build (loByte a) (hiByte a) = mk a :=
  congrArg mk (joinBytes_hi_lo a)

/-- The cell at an instruction's opcode gives the instruction back from its operand bytes, whatever follows them (R92, R119). -/
theorem exists_lookup_opcode (i : Instr) : ∃ f, lookup i.desc.opcode = some f ∧
    ∀ rest : List Byte, f.build ((i.operand.bytes ++ rest).getD 0 0) ((i.operand.bytes ++ rest).getD 1 0) = i := by
  cases i
  case ldaAbs a | ldaAbsx a | ldaAbsy a | ldxAbs a | ldxAbsy a | ldyAbs a | ldyAbsx a | staAbs a | staAbsx a | staAbsy a
      | stxAbs a | styAbs a | adcAbs a | adcAbsx a | adcAbsy a | sbcAbs a | sbcAbsx a | sbcAbsy a | andAbs a | andAbsx a
      | andAbsy a | oraAbs a | oraAbsx a | oraAbsy a | eorAbs a | eorAbsx a | eorAbsy a | bitAbs a | aslAbs a | aslAbsx a
      | lsrAbs a | lsrAbsx a | rolAbs a | rolAbsx a | rorAbs a | rorAbsx a | cmpAbs a | cmpAbsx a | cmpAbsy a | cpxAbs a
      | cpyAbs a | incAbs a | incAbsx a | decAbs a | decAbsx a | jmpAbs a | jmpInd a | jsr a | laxAbs a | laxAbsy a
      | saxAbs a | dcpAbs a | dcpAbsx a | dcpAbsy a | iscAbs a | iscAbsx a | iscAbsy a =>
    exact ⟨_, rfl, fun _ => build_address _ a⟩
  all_goals exact ⟨_, rfl, fun _ => rfl⟩

/-- An opcode with its operand bytes decodes to its instruction where that is admitted, and to nothing else (R93, R115). -/
theorem decodeWith_opcode (unofficialExec : Bool) (i : Instr) (rest : List Byte) :
    decodeWith unofficialExec i.desc.opcode ((i.operand.bytes ++ rest).getD 0 0) ((i.operand.bytes ++ rest).getD 1 0) =
      if i.wfWith unofficialExec then some i else none := by
  obtain ⟨f, hlookup, hbuild⟩ := exists_lookup_opcode i
  simp only [decodeWith, hlookup, hbuild]

theorem operand_bytes_length_le (o : Operand) : o.bytes.length ≤ 2 := by
  cases o with
  | implied | accumulator => exact Nat.zero_le 2
  | mem m => cases m <;> exact Nat.le_of_ble_eq_true rfl

/-- The two bytes after the opcode begin with the operand bytes where the encoding lies at PC. -/
theorem operand_bytes_isPrefix {s : State} {i : Instr}
    (h : ∀ (k : Nat) (b : Byte), (encode i)[k]? = some b → s.readByte (s.pc + BitVec.ofNat 16 k) = b) :
    i.operand.bytes <+: [s.readByte (s.pc + 1), s.readByte (s.pc + 2)] := by
  refine List.prefix_iff_getElem?.mpr fun k hk => ?_
  have hread := h (k + 1) _ (List.getElem?_eq_getElem hk)
  have hlen := operand_bytes_length_le i.operand
  obtain rfl | rfl : k = 0 ∨ k = 1 := by omega
  · exact congrArg some hread
  · exact congrArg some hread

/-- The fetch reads the instruction whose encoding lies at PC (R90, R131). -/
theorem fetch_of_encoding_at_pc {s : State} {i : Instr} (hwf : i.WellFormed)
    (h : ∀ (k : Nat) (b : Byte), (encode i)[k]? = some b → s.readByte (s.pc + BitVec.ofNat 16 k) = b) : s.fetch = some i := by
  have hopcode : s.readByte s.pc = i.desc.opcode := by simpa using h 0 _ rfl
  obtain ⟨rest, hrest⟩ := operand_bytes_isPrefix h
  have hdecode := decodeWith_opcode Config.unofficialExec i rest
  rw [hrest, if_pos hwf] at hdecode
  rw [State.fetch, hopcode]
  exact hdecode

/-- Settles O7, from the fetch. -/
theorem storedEncodingRuns : Obligations.StoredEncodingRuns := by
  intro s i hwf h
  simp only [step, stepResult, fetch_of_encoding_at_pc hwf h, and_self]

end Sys2Proof.Machine
end

section
/-! Decode and encode: each is the inverse of the other, and which bytes UNOFFICIAL_EXEC admits. -/

namespace Sys2Proof.Machine

/-! ## Encoding, then decoding -/

theorem operand_bytes_length (o : Operand) : o.bytes.length = o.count := by
  cases o with
  | implied | accumulator => rfl
  | mem m => cases m <;> rfl

/-- The decoder's answer on an opcode byte whose instruction is found. -/
theorem decode_cons_of_decodeWith {op : Byte} {tail : List Byte} {i : Instr}
    (h : decodeWith Config.unofficialExec op (tail.getD 0 0) (tail.getD 1 0) = some i) :
    decode (op :: tail) =
      if tail.length < i.operand.count then .error (.truncated op) else .ok (i, tail.drop i.operand.count) := by
  simp only [decode, h]

/-- Settles O2: the opcode byte's cell gives the instruction back, and just its operand bytes are dropped. -/
theorem decodeInvertsEncode : Obligations.DecodeInvertsEncode := by
  intro i rest hwf
  have hdecode := decodeWith_opcode Config.unofficialExec i rest
  rw [if_pos hwf] at hdecode
  have henough : ¬ (i.operand.bytes ++ rest).length < i.operand.count := by
    rw [List.length_append, operand_bytes_length]
    omega
  rw [encode, List.cons_append, decode_cons_of_decodeWith hdecode, if_neg henough,
    List.drop_left' (operand_bytes_length i.operand)]

/-- Settles O3: the check of `wfWith` is the one clause between a cell and its answer. -/
theorem decodeFollowsUnofficialPolicy : Obligations.DecodeFollowsUnofficialPolicy := by
  intro unofficial i b1 b2
  rw [decodeWith_opcode, Instr.wfWith]
  cases i.isUnofficial <;> cases unofficial <;> rfl

/-- Settles O1: a word of each mode, read by the decoder. -/
theorem decodesSpecWords : Obligations.DecodesSpecWords :=
  ⟨rfl, rfl, rfl, rfl, rfl, rfl, rfl, rfl, rfl, rfl, rfl, rfl, rfl⟩

/-! ## Decoding, then encoding -/

/-- A cell belongs at `op` where every instruction it gives has that opcode and, for its operand bytes, those it was given. -/
def FitsOpcode (op : Byte) : Form → Prop
  | .noOperand i => i.desc.opcode = op ∧ i.operand.bytes = []
  | .oneByte mk => ∀ b, (mk b).desc.opcode = op ∧ (mk b).operand.bytes = [b]
  | .address mk => ∀ a, (mk a).desc.opcode = op ∧ (mk a).operand.bytes = [loByte a, hiByte a]

/-- The cell at an instruction's opcode belongs there. -/
theorem exists_lookup_fits (i : Instr) : ∃ f, lookup i.desc.opcode = some f ∧ FitsOpcode i.desc.opcode f := by
  cases i
  case aslAcc | lsrAcc | rolAcc | rorAcc | inx | dex | iny | dey | rts | pha | php | pla | plp | brk | rti | tax | tay | tsx
      | txa | txs | tya | clc | sec | cli | sei | clv | cld | sed | nop =>
    exact ⟨_, rfl, rfl, rfl⟩
  all_goals exact ⟨_, rfl, fun _ => ⟨rfl, rfl⟩⟩

/-- The map and the table agree on the opcode, byte by byte (R114, R116, R119). -/
theorem opcode_build_zero : ∀ op : Byte, ∀ f ∈ lookup op, (f.build 0 0).desc.opcode = op := by decide

/-- Every cell belongs where it stands: the byte selects it, and the table's row for that byte fits it. -/
theorem fits_of_lookup {op : Byte} {f : Form} (h : lookup op = some f) : FitsOpcode op f := by
  have hop : (f.build 0 0).desc.opcode = op := opcode_build_zero op f h
  obtain ⟨g, hg, hfits⟩ := exists_lookup_fits (f.build 0 0)
  rw [hop, h] at hg
  cases hg
  exact hop ▸ hfits

theorem opcode_build {op : Byte} {f : Form} (h : FitsOpcode op f) (b1 b2 : Byte) : (f.build b1 b2).desc.opcode = op := by
  cases f with
  | noOperand i => exact h.1
  | oneByte mk => exact (h b1).1
  | address mk => exact (h _).1

theorem operand_bytes_build {op : Byte} {f : Form} (h : FitsOpcode op f) (b1 b2 : Byte) :
    (f.build b1 b2).operand.bytes <+: [b1, b2] := by
  cases f with
  | noOperand i => exact h.2 ▸ List.nil_prefix
  | oneByte mk => exact (h b1).2 ▸ ⟨[b2], rfl⟩
  | address mk =>
    have hbytes := (h (joinBytes b2 b1)).2
    rw [loByte_joinBytes, hiByte_joinBytes] at hbytes
    exact hbytes ▸ List.prefix_rfl

/-- What the table decoder answers: an admitted instruction with that opcode and, for its operand bytes, those after it. -/
theorem decodeWith_eq_some {unofficial : Bool} {op b1 b2 : Byte} {i : Instr} (h : decodeWith unofficial op b1 b2 = some i) :
    i.desc.opcode = op ∧ i.operand.bytes <+: [b1, b2] ∧ i.wfWith unofficial = true := by
  unfold decodeWith at h
  split at h
  · cases h
  · next f hlookup =>
    split at h
    · next hwf =>
      cases h
      have hfits := fits_of_lookup hlookup
      exact ⟨opcode_build hfits b1 b2, operand_bytes_build hfits b1 b2, hwf⟩
    · cases h

/-- What the decoder answers on a byte string (R90, R91). -/
theorem decode_eq_ok {bytes rest : List Byte} {i : Instr} (h : decode bytes = .ok (i, rest)) :
    ∃ op tail, bytes = op :: tail ∧ decodeWith Config.unofficialExec op (tail.getD 0 0) (tail.getD 1 0) = some i ∧
      i.operand.count ≤ tail.length ∧ rest = tail.drop i.operand.count := by
  unfold decode at h
  split at h
  · cases h
  · next op tail =>
    split at h
    · cases h
    · next j hdecode =>
      split at h
      · cases h
      · next hlen =>
        cases h
        exact ⟨op, tail, rfl, hdecode, Nat.le_of_not_lt hlen, rfl⟩

/-- A string that begins the bytes read, those past the end as zero, begins `tail` where `tail` is long enough. -/
theorem isPrefix_of_isPrefix_getD {bytes tail : List Byte} (h : bytes <+: [tail.getD 0 0, tail.getD 1 0])
    (hlen : bytes.length ≤ tail.length) : bytes <+: tail := by
  have hpadded : [tail.getD 0 0, tail.getD 1 0] <+: tail ++ [0, 0] := by
    match tail with
    | [] | [_] | _ :: _ :: _ => simp
  exact List.prefix_of_prefix_length_le (h.trans hpadded) (List.prefix_append ..) hlen

/-- Settles O4: the cell belongs at its byte, so its instruction's operand bytes are the ones read. -/
theorem encodeInvertsDecode : Obligations.EncodeInvertsDecode := by
  intro bytes rest i h
  obtain ⟨op, tail, rfl, hdecode, hlen, rfl⟩ := decode_eq_ok h
  obtain ⟨rfl, hread, hwf⟩ := decodeWith_eq_some hdecode
  rw [← operand_bytes_length] at hlen ⊢
  have htail := List.prefix_iff_eq_append.mp (isPrefix_of_isPrefix_getD hread hlen)
  exact ⟨congrArg (i.desc.opcode :: ·) htail.symm, hwf⟩

end Sys2Proof.Machine
end

section
/-! The bytes that are no instruction, and what a step does on one. -/

namespace Sys2Proof.Machine

/-! ## The empty cells of the map -/

theorem length_opcodeMap : opcodeMap.length = 256 := by
  simp only [opcodeMap, List.length_append]
  rfl

theorem getElem?_opcodeMap (op : Byte) : opcodeMap[op.toNat]? = some (lookup op) := by
  have hlt : op.toNat < opcodeMap.length := length_opcodeMap ▸ op.isLt
  rw [lookup, List.getElem?_eq_getElem hlt, Option.join_some]

/-- The bytes whose cell is empty, read off the map in one pass. -/
def emptyCells : List Byte := (opcodeMap.zipIdx.filter fun cell => cell.1.isNone).map fun cell => BitVec.ofNat 8 cell.2

theorem mem_emptyCells {op : Byte} : op ∈ emptyCells ↔ lookup op = none := by
  simp only [emptyCells, List.mem_map, List.mem_filter, Option.isNone_iff_eq_none]
  constructor
  · rintro ⟨⟨cell, k⟩, ⟨hmem, rfl⟩, rfl⟩
    have hcell := List.mk_mem_zipIdx_iff_getElem?.mp hmem
    obtain ⟨hlt, -⟩ := List.getElem?_eq_some_iff.mp hcell
    rw [length_opcodeMap] at hlt
    rw [lookup, BitVec.toNat_ofNat, Nat.mod_eq_of_lt hlt, hcell, Option.join_some]
  · intro h
    exact ⟨(lookup op, op.toNat), ⟨List.mk_mem_zipIdx_iff_getElem?.mpr (getElem?_opcodeMap op), h⟩, BitVec.ofNat_toNat ..⟩

/-! ## What the decoder and the step answer on an illegal byte -/

/-- The bytes of R116. -/
def unofficialOpcodes : List Byte :=
  [0x83, 0x87, 0x8F, 0x97, 0xA3, 0xA7, 0xAF, 0xB3, 0xB7, 0xBF, 0xC3, 0xC7, 0xCF, 0xD3, 0xD7, 0xDB, 0xDF, 0xE3, 0xE7, 0xEF, 0xF3,
    0xF7, 0xFB, 0xFF]

theorem isUnofficial_eq_decide_mem (i : Instr) : i.isUnofficial = decide (i.desc.opcode ∈ unofficialOpcodes) := by
  cases i <;> rfl

theorem wfWith_true (i : Instr) : i.wfWith true = true := Bool.or_true _

/-- With UNOFFICIAL_EXEC true only a byte outside the map is illegal (R115, R117). -/
theorem decodeWith_true_eq_none {op b1 b2 : Byte} : decodeWith true op b1 b2 = none ↔ lookup op = none := by
  unfold decodeWith
  cases lookup op with
  | none => exact ⟨fun _ => rfl, fun _ => rfl⟩
  | some f => simp [wfWith_true]

/-- With UNOFFICIAL_EXEC false the bytes of R116 are illegal too (R115). -/
theorem decodeWith_false_eq_none {op b1 b2 : Byte} :
    decodeWith false op b1 b2 = none ↔ lookup op = none ∨ op ∈ unofficialOpcodes := by
  unfold decodeWith
  cases h : lookup op with
  | none => simp
  | some f =>
    have hopcode := opcode_build (fits_of_lookup h) b1 b2
    simp [Instr.wfWith, isUnofficial_eq_decide_mem, hopcode]

theorem step_of_lookup_eq_none {s : State} (h : lookup (s.readByte s.pc) = none) :
    step s = .fault (.illegalOpcode (s.readByte s.pc)) := by
  have hfetch : s.fetch = none := decodeWith_true_eq_none.mpr h
  rw [step, hfetch]

/-- An illegal byte leaves the state as the host saw it (R132). -/
theorem afterStep_of_lookup_eq_none {s : State} (h : lookup (s.readByte s.pc) = none) : s.afterStep = s := by
  rw [State.afterStep, step_of_lookup_eq_none h]

/-- Settles O5: the list of R117 is the empty cells of the map, and the rest follows from the cells. -/
theorem illegalBytesRaiseIllegalOpcode : Obligations.IllegalBytesRaiseIllegalOpcode := by
  unfold Obligations.IllegalBytesRaiseIllegalOpcode
  intro illegal unofficialBytes
  have hempty : emptyCells = illegal := rfl
  have hillegal (op : Byte) : lookup op = none ↔ op ∈ illegal := hempty ▸ mem_emptyCells.symm
  refine ⟨fun op b1 b2 => ?_, fun op b1 b2 => ?_, fun s hs => ?_⟩
  · rw [decodeWith_true_eq_none, hillegal]
  · rw [decodeWith_false_eq_none, hillegal, List.mem_append, unofficialOpcodes]
  · have hlookup := (hillegal _).mpr hs
    exact ⟨step_of_lookup_eq_none hlookup, afterStep_of_lookup_eq_none hlookup⟩

end Sys2Proof.Machine
end

section
/-! The addressing modes: what each resolves to, and which instructions have it. -/

namespace Sys2Proof.Machine

/-! ## Bytes and words as numbers -/

theorem toNat_loByte (w : Addr) : (loByte w).toNat = w.toNat % 256 := by
  simp [loByte]

theorem toNat_hiByte (w : Addr) : (hiByte w).toNat = w.toNat / 256 := by
  have := w.isLt
  rw [hiByte, BitVec.extractLsb'_toNat, Nat.shiftRight_eq_div_pow]
  omega

theorem toNat_zextAddr (b : Byte) : (zextAddr b).toNat = b.toNat :=
  BitVec.toNat_setWidth_of_le (by decide)

/-- A byte sum wraps modulo 256 before it becomes an address (R101, R107). -/
theorem toNat_zextAddr_add (b c : Byte) : (zextAddr (b + c)).toNat = (b.toNat + c.toNat) % 256 := by
  rw [toNat_zextAddr, BitVec.toNat_add]

/-- An index is added to a word modulo 65536 (R104, R108). -/
theorem toNat_add_zextAddr (w : Addr) (b : Byte) : (w + zextAddr b).toNat = (w.toNat + b.toNat) % 65536 := by
  rw [BitVec.toNat_add, toNat_zextAddr]

/-! ## The instructions of a mode -/

theorem eq_of_operand_zeroPageY {i : Instr} {b : Byte} (h : i.operand = .mem (.zeroPageY b)) :
    i = .ldxZpy b ∨ i = .stxZpy b ∨ i = .laxZpy b ∨ i = .saxZpy b := by
  cases i with
  | ldxZpy _ | stxZpy _ | laxZpy _ | saxZpy _ => cases h; simp
  | _ => cases h

theorem eq_of_operand_indirect {i : Instr} {ptr : Addr} (h : i.operand = .mem (.indirect ptr)) : i = .jmpInd ptr := by
  cases i with
  | jmpInd _ => cases h; rfl
  | _ => cases h

theorem mnemonic_of_operand_relative {i : Instr} {off : Byte} (h : i.operand = .mem (.relative off)) :
    i.mnemonic ∈ [.bcc, .bcs, .beq, .bmi, .bne, .bpl, .bvc, .bvs] := by
  cases i with
  | bcc _ | bcs _ | beq _ | bmi _ | bne _ | bpl _ | bvc _ | bvs _ => exact List.mem_of_elem_eq_true rfl
  | _ => cases h

/-! ## The statements -/

/-- Settles O10, mode by mode. -/
theorem directModesResolve : Obligations.DirectModesResolve := by
  intro s
  refine ⟨rfl, rfl, rfl, rfl, fun i b h => ?users, fun b => ⟨_, rfl, toNat_zextAddr b⟩, fun b => ⟨_, rfl, toNat_zextAddr_add b s.x⟩,
    fun b => ⟨_, rfl, toNat_zextAddr_add b s.y⟩, fun a => ⟨_, rfl, rfl, ?word, rfl⟩, fun a => ⟨_, rfl, toNat_add_zextAddr a s.x⟩,
    fun a => ⟨_, rfl, toNat_add_zextAddr a s.y⟩⟩
  case users => obtain rfl | rfl | rfl | rfl := eq_of_operand_zeroPageY h <;> exact List.mem_of_elem_eq_true rfl
  case word => rw [← toNat_joinBytes, joinBytes_hi_lo]

/-- The two masks of R106 choose the high byte of one word and the low byte of the other. -/
theorem masked_or_masked (h l h' l' : Byte) : (joinBytes h l &&& 0xFF00) ||| (joinBytes h' l' &&& 0x00FF) = joinBytes h l' := by
  change ((h ++ l) &&& (BitVec.allOnes 8 ++ 0#8)) ||| ((h' ++ l') &&& (0#8 ++ BitVec.allOnes 8)) = h ++ l'
  simp only [BitVec.and_append, BitVec.or_append, BitVec.and_allOnes, BitVec.and_zero, BitVec.or_zero, BitVec.zero_or]

/-- The successor in the page is the pointer's page with the low byte of its successor (R106). -/
theorem samePageNext_eq (ptr : Addr) : samePageNext ptr = joinBytes (hiByte ptr) (loByte (ptr + 1)) := by
  have h := masked_or_masked (hiByte ptr) (loByte ptr) (hiByte (ptr + 1)) (loByte (ptr + 1))
  rwa [joinBytes_hi_lo, joinBytes_hi_lo] at h

theorem toNat_samePageNext (ptr : Addr) :
    (samePageNext ptr).toNat = 256 * (ptr.toNat / 256) + (ptr.toNat + 1) % 256 := by
  have hsucc : (ptr + 1).toNat % 256 = (ptr.toNat + 1) % 256 := Nat.mod_mod_of_dvd _ (by decide)
  rw [samePageNext_eq, toNat_joinBytes, toNat_hiByte, toNat_loByte, hsucc]

/-- Settles O11: the high byte's address is in the pointer's page. -/
theorem indirectPointerWrapsInItsPage : Obligations.IndirectPointerWrapsInItsPage :=
  ⟨fun _ _ => eq_of_operand_indirect, fun _ ptr => ⟨_, samePageNext ptr, rfl, toNat_samePageNext ptr, toNat_joinBytes ..⟩⟩

/-- Settles O12: pointer and successor are bytes, and Y is added to the word between them. -/
theorem zeroPagePointersWrap : Obligations.ZeroPagePointersWrap := by
  intro s b
  refine ⟨⟨_, zextAddr (b + s.x), zextAddr (b + s.x + 1), rfl, toNat_zextAddr_add b s.x, ?_, toNat_joinBytes ..⟩,
    ⟨_, zextAddr b, zextAddr (b + 1), rfl, toNat_zextAddr b, toNat_zextAddr_add b 1, ?_⟩⟩
  · rw [toNat_zextAddr_add, toNat_zextAddr]
    rfl
  · rw [← toNat_joinBytes]
    exact toNat_add_zextAddr _ s.y

/-- A branch target is the integer sum, taken modulo 65536 (R109). -/
theorem relativeTarget_eq_ofInt (pc : Addr) (off : Byte) :
    pc + 2 + sextAddr off = BitVec.ofInt 16 ((pc.toNat : Int) + 2 + off.toInt) := by
  rw [BitVec.ofInt_add, BitVec.ofInt_add, BitVec.ofInt_natCast, BitVec.ofNat_toNat, BitVec.setWidth_eq]
  rfl

/-- Settles O13: the branches are read off the table, and the target is the integer sum modulo 65536. -/
theorem relativeTargetIsSigned : Obligations.RelativeTargetIsSigned := by
  refine ⟨fun _ _ => mnemonic_of_operand_relative, fun s off => ⟨_, rfl, ?_⟩⟩
  have hnonneg : 0 ≤ ((s.pc.toNat : Int) + 2 + off.toInt) % 65536 := Int.emod_nonneg _ (by decide)
  rw [effAddr, relativeTarget_eq_ofInt, BitVec.toNat_ofInt]
  exact Int.toNat_of_nonneg hnonneg

end Sys2Proof.Machine
end

section
/-! The execution cycle: the fetch on any byte, what a step answers and returns, where PC ends, and the host's commands. -/

namespace Sys2Proof.Machine

/-! ## The fetch and the step -/

/-- A byte with a cell is fetched as the cell's instruction: UNOFFICIAL_EXEC is true, so none is held back (R93, R115). -/
theorem fetch_of_lookup_eq_some {s : State} {f : Form} (h : lookup (s.readByte s.pc) = some f) :
    s.fetch = some (f.build (s.readByte (s.pc + 1)) (s.readByte (s.pc + 2))) := by
  simp only [State.fetch, decodeWith, h, Config.unofficialExec, wfWith_true, if_true]

theorem fetch_of_lookup_eq_none {s : State} (h : lookup (s.readByte s.pc) = none) : s.fetch = none :=
  decodeWith_true_eq_none.mpr h

theorem step_of_fetch {s : State} {i : Instr} (h : s.fetch = some i) : step s = exec i s := by
  rw [step, h]

theorem stepResult_of_fetch {s : State} {i : Instr} (h : s.fetch = some i) : stepResult s = .ok i.baseCycles := by
  rw [stepResult, h]

theorem stepResult_of_lookup_eq_none {s : State} (h : lookup (s.readByte s.pc) = none) :
    stepResult s = .illegalOpcode (s.readByte s.pc) := by
  rw [stepResult, fetch_of_lookup_eq_none h]

/-- After an illegal byte there are no operand and no handler accesses (R270). -/
theorem busAccesses_of_lookup_eq_none {s : State} (h : lookup (s.readByte s.pc) = none) :
    busAccesses s = [.read s.pc (s.readByte s.pc)] := by
  rw [busAccesses, fetch_of_lookup_eq_none h, State.seen]

/-- Settles O46: the instructions by `stateAfter`, the steps by the cell of the fetched byte. -/
theorem everyInstructionCompletes : Obligations.EveryInstructionCompletes := by
  refine ⟨fun i s => ⟨stateAfter i s, exec_eq_stateAfter i s⟩, fun s => ?_⟩
  cases h : lookup (s.readByte s.pc) with
  | none => exact .inr ⟨step_of_lookup_eq_none h, rfl⟩
  | some f =>
    exact .inl ⟨_, (step_of_fetch (fetch_of_lookup_eq_some h)).trans (exec_eq_stateAfter ..), Option.some_ne_none f⟩

/-- Settles O6: what `decode` answers on the three bytes is what the fetch answers. -/
theorem stepRunsTheDecodedInstruction : Obligations.StepRunsTheDecodedInstruction := by
  intro s i rest h
  obtain ⟨op, tail, hbytes, hdecode, -, -⟩ := decode_eq_ok h
  cases hbytes
  have hfetch : s.fetch = some i := hdecode
  obtain ⟨-, -, hwf⟩ := decodeWith_eq_some hfetch
  exact ⟨hwf, step_of_fetch hfetch⟩

/-- Settles O8: every clause follows from the empty cell, and the host sees the same state, so the same error, again. -/
theorem illegalOpcodeChangesNothing : Obligations.IllegalOpcodeChangesNothing := fun _ h =>
  ⟨step_of_lookup_eq_none h, afterStep_of_lookup_eq_none h, stepResult_of_lookup_eq_none h, busAccesses_of_lookup_eq_none h,
    congrArg stepResult (afterStep_of_lookup_eq_none h)⟩

/-! ## The cycle count -/

/-- The cell at an instruction's opcode gives instructions of its cycle count, whatever the operand bytes (R114, R116, R135). -/
theorem exists_lookup_baseCycles (i : Instr) :
    ∃ f, lookup i.desc.opcode = some f ∧ ∀ b1 b2, (f.build b1 b2).baseCycles = i.baseCycles := by
  cases i <;> exact ⟨_, rfl, fun _ _ => rfl⟩

/-- The cycle count of a cell, read off with zero operand bytes. -/
def cellCycles (cell : Option Form) : Option Nat := cell.map fun f => (f.build 0 0).baseCycles

/-- The opcode byte alone fixes the base cycle count. -/
theorem cellCycles_opcode (i : Instr) : cellCycles (lookup i.desc.opcode) = some i.baseCycles := by
  obtain ⟨f, hlookup, hcycles⟩ := exists_lookup_baseCycles i
  rw [hlookup, cellCycles, Option.map_some, hcycles]

/-- A step that runs an instruction returns the count of its opcode byte's cell (R135). -/
theorem stepResult_of_cellCycles {s : State} {cycles : Nat} (h : cellCycles (lookup (s.readByte s.pc)) = some cycles) :
    stepResult s = .ok cycles := by
  obtain ⟨f, hlookup, -⟩ := Option.map_eq_some_iff.mp h
  have hopcode := opcode_build (fits_of_lookup hlookup) (s.readByte (s.pc + 1)) (s.readByte (s.pc + 2))
  rw [← hopcode, cellCycles_opcode] at h
  rw [stepResult_of_fetch (fetch_of_lookup_eq_some hlookup), Option.some.inj h]

/-- The bytes whose cell has a cycle count, read off the map in one pass. -/
def bytesOfCycles (cycles : Nat) : List Byte :=
  (opcodeMap.zipIdx.filter fun cell => cellCycles cell.1 == some cycles).map fun cell => BitVec.ofNat 8 cell.2

theorem cellCycles_of_mem_bytesOfCycles {cycles : Nat} {op : Byte} (h : op ∈ bytesOfCycles cycles) :
    cellCycles (lookup op) = some cycles := by
  simp only [bytesOfCycles, List.mem_map, List.mem_filter, beq_iff_eq] at h
  obtain ⟨⟨cell, k⟩, ⟨hmem, hcycles⟩, rfl⟩ := h
  have hcell := List.mk_mem_zipIdx_iff_getElem?.mp hmem
  obtain ⟨hlt, -⟩ := List.getElem?_eq_some_iff.mp hcell
  rw [length_opcodeMap] at hlt
  rwa [lookup, BitVec.toNat_ofNat, Nat.mod_eq_of_lt hlt, hcell, Option.join_some]

/-- The bytes of one count make a row of the table. -/
theorem stepResult_of_bytesOfCycles_eq {cycles : Nat} {ops : List Byte} (hops : bytesOfCycles cycles = ops) (s : State)
    (h : s.readByte s.pc ∈ ops) : stepResult s = .ok cycles :=
  stepResult_of_cellCycles (cellCycles_of_mem_bytesOfCycles (hops ▸ h))

/-- Settles O57: each list is the bytes of its count, read off the map. -/
theorem stepReturnsTheTableCycleCount : Obligations.StepReturnsTheTableCycleCount :=
  ⟨stepResult_of_bytesOfCycles_eq rfl, stepResult_of_bytesOfCycles_eq rfl, stepResult_of_bytesOfCycles_eq rfl,
    stepResult_of_bytesOfCycles_eq rfl, stepResult_of_bytesOfCycles_eq rfl, stepResult_of_bytesOfCycles_eq rfl,
    stepResult_of_bytesOfCycles_eq rfl, fun _ => stepResult_of_lookup_eq_none⟩

/-! ## PC after an instruction -/

theorem toNat_postFetchPc (o : Operand) (s : State) : (postFetchPc o s).toNat = (s.pc.toNat + 1 + o.count) % 65536 := by
  simp [postFetchPc, BitVec.toNat_add]

theorem pcAfter_of_not_writer {mn : Mnemonic} (hw : mn ∉ pcWriters) (o : Operand) (s : State) :
    pcAfter mn o s = postFetchPc o s := by
  cases mn with
  | bcc | bcs | beq | bmi | bne | bpl | bvc | bvs | jmp | jsr | rts | brk | rti => exact absurd (by decide) hw
  | _ => rfl

/-- The eight branches (R134, R210). -/
def branchMnemonics : List Mnemonic := [.bcc, .bcs, .beq, .bmi, .bne, .bpl, .bvc, .bvs]

/-- The branches have Relative mode (R109). -/
theorem exists_operand_relative {i : Instr} (h : i.mnemonic ∈ branchMnemonics) : ∃ off, i.operand = .mem (.relative off) := by
  cases i with
  | bcc off | bcs off | beq off | bmi off | bne off | bpl off | bvc off | bvs off => exact ⟨off, rfl⟩
  | _ => cases List.elem_eq_true_of_mem h

/-- A branch goes to its target or to the next instruction (R210). -/
theorem exists_pcAfter_eq_branchPc {mn : Mnemonic} (h : mn ∈ branchMnemonics) (o : Operand) (s : State) :
    ∃ taken, pcAfter mn o s = branchPc taken o s := by
  cases mn with
  | bcc | bcs | beq | bmi | bne | bpl | bvc | bvs => exact ⟨_, rfl⟩
  | _ => exact absurd h (by decide)

/-- A branch that does not end on the next instruction, two bytes on, was taken. -/
theorem branchPc_eq_effAddr {taken : Bool} {off : Byte} {s : State} (h : branchPc taken (.mem (.relative off)) s ≠ s.pc + 2) :
    branchPc taken (.mem (.relative off)) s = effAddr (.relative off) s := by
  cases taken with
  | true => rfl
  | false => exact absurd (BitVec.add_assoc s.pc 1 1) h

theorem pcAfter_eq_effAddr_of_branch {i : Instr} {s : State} (hbranch : i.mnemonic ∈ branchMnemonics)
    (hpc : pcAfter i.mnemonic i.operand s ≠ s.pc + 2) :
    ∃ off, i.operand = .mem (.relative off) ∧ pcAfter i.mnemonic i.operand s = effAddr (.relative off) s := by
  obtain ⟨off, hoff⟩ := exists_operand_relative hbranch
  obtain ⟨taken, htaken⟩ := exists_pcAfter_eq_branchPc hbranch i.operand s
  rw [htaken, hoff] at hpc
  exact ⟨off, hoff, by rw [htaken, hoff, branchPc_eq_effAddr hpc]⟩

/-- Settles O51: `pcAfter` is the post-fetch PC but for the writers, and a branch's is one of two addresses. -/
theorem onlyControlTransfersLeaveThePostFetchPc : Obligations.OnlyControlTransfersLeaveThePostFetchPc := fun i s =>
  ⟨stateAfter i s, exec_eq_stateAfter i s, fun hw => (congrArg BitVec.toNat (pcAfter_of_not_writer hw ..)).trans (toNat_postFetchPc ..),
    pcAfter_eq_effAddr_of_branch⟩

/-! ## The host's commands -/

theorem State.afterStep_inv {s : State} (h : s.Inv) : s.afterStep.Inv := by
  unfold State.afterStep
  split
  · next t hstep => exact step_inv h hstep
  · exact h
  · exact h

/-- A command keeps the invariant where a launch sets bit 5 of P (R51, R143). -/
theorem Command.run_inv {c : Command} {s : State} (hlaunch : ∀ a x y sp p pc, c = .launch a x y sp p pc → p[5] = true)
    (h : s.Inv) : (c.run s).Inv := by
  cases c with
  | construct => exact ⟨bit5_powerOn s.mem, h.2⟩
  | reset => exact h
  | step => exact State.afterStep_inv h
  | poke a v => exact State.Inv_writeByte a v h
  | launch a x y sp p pc => exact ⟨hlaunch a x y sp p pc rfl, h.2⟩

theorem runCommands_inv {cs : List Command} {s : State}
    (hlaunch : ∀ a x y sp p pc, Command.launch a x y sp p pc ∈ cs → p[5] = true) (h : s.Inv) : (runCommands cs s).Inv := by
  induction cs generalizing s with
  | nil => exact h
  | cons c rest ih =>
    have hrun : (c.run s).Inv := Command.run_inv (fun a x y sp p pc hc => hlaunch a x y sp p pc (hc ▸ List.mem_cons_self)) h
    exact ih (fun a x y sp p pc hmem => hlaunch a x y sp p pc (List.mem_cons_of_mem c hmem)) hrun

/-- Only `step` and `poke` touch memory (R82, R140, R300). -/
theorem Command.run_mem {c : Command} (hstep : c ≠ .step) (hpoke : ∀ a v, c ≠ .poke a v) (s : State) :
    (c.run s).mem = s.mem := by
  cases c with
  | construct | reset | launch => rfl
  | step => exact absurd rfl hstep
  | poke a v => exact absurd rfl (hpoke a v)

/-- Settles O60: the invariant command by command, then along the sequence; a poke is one memory write. -/
theorem hostCommandsKeepTheInvariant : Obligations.HostCommandsKeepTheInvariant := by
  refine ⟨fun _ _ => runCommands_inv, fun _ s hstep hpoke => Command.run_mem hstep hpoke s, fun a v s => ⟨?_, fun b hb => ?_, rfl⟩⟩
  · exact Memory.read_write_same s.mem a v
  · exact Memory.read_write_other s.mem v (List.ne_of_not_mem_cons hb)

end Sys2Proof.Machine
end

section
/-! Loads and stores (41_load_store.md): what the classes that access a memory operand do to the state, said once for each class. The rows
of a mnemonic then differ in their operand alone. -/

namespace Sys2Proof.Machine

/-! ## The access classes -/

/-- The classes whose handler accesses the memory operand (R138). -/
def accessesOperand : AccessClass → Bool
  | .read | .store | .readModifyWrite => true
  | .register | .stack | .control => false

/-- What writes SP or PC itself is in none of these classes (R34, R134, R138). -/
theorem accessesOperand_of_writer :
    ∀ mn ∈ spWriters ++ pcWriters, accessesOperand mn.memoryClass = false := by decide

section
variable {i : Instr} {op : Byte} {m : MemOperand}

theorem encode_of_operand (hop : i.desc.opcode = op) (hm : i.operand = .mem m) : encode i = op :: m.bytes := by
  rw [encode, hop, hm, Operand.bytes]

/-- The handler's accesses are its class's: JSR, the one exception among memory operands, is of control class (R138, R228). -/
theorem handlerAccesses_of_operand (hm : i.operand = .mem m) (hclass : accessesOperand i.mnemonic.memoryClass = true)
    (s : State) : handlerAccesses i s =
      operandAccesses m i.mnemonic.memoryClass (storedByte i.mnemonic (s.readByte (effAddr m s)) s) s := by
  have hjsr : i.mnemonic ≠ .jsr := fun h => absurd (h ▸ hclass) (by decide)
  simp only [handlerAccesses, Instr.accessClass, hm, if_neg hjsr, reduceCtorEq, if_false]

/-- An instruction that accesses its memory operand keeps SP, leaves PC past its bytes, and does to memory what its class does. -/
theorem stateAfter_of_operand (hm : i.operand = .mem m) (hclass : accessesOperand i.mnemonic.memoryClass = true)
    (s : State) :
    stateAfter i s = { s with
      a := accAfter i.mnemonic (.mem m) (operandValue m s) s
      x := xAfter i.mnemonic (operandValue m s) s
      y := yAfter i.mnemonic (operandValue m s) s
      p := statusAfter i.mnemonic (.mem m) (operandValue m s) s
      pc := s.pc + 1 + BitVec.ofNat 16 m.count
      mem := s.mem.afterAccesses
        (operandAccesses m i.mnemonic.memoryClass (storedByte i.mnemonic (s.readByte (effAddr m s)) s) s) } := by
  have hwriter : i.mnemonic ∉ spWriters ++ pcWriters := fun h =>
    Bool.false_ne_true ((accessesOperand_of_writer _ h).symm.trans hclass)
  obtain ⟨hsp, hpc⟩ := not_or.mp (mt List.mem_append.mpr hwriter)
  rw [stateAfter, handlerAccesses_of_operand hm hclass, hm, spAfter_of_not_writer hsp, pcAfter_of_not_writer hpc]
  rfl

/-- A read-class instruction writes A, X, Y and P as its mnemonic does, and keeps memory (R138). -/
theorem readsAs_of_read {after : Byte → State → State} (hop : i.desc.opcode = op) (hm : i.operand = .mem m)
    (hclass : i.mnemonic.memoryClass = .read)
    (hafter : ∀ (v : Byte) (s : State), after v s = { s with
      a := accAfter i.mnemonic (.mem m) v s
      x := xAfter i.mnemonic v s
      y := yAfter i.mnemonic v s
      p := statusAfter i.mnemonic (.mem m) v s }) : ReadsAs i op m after := by
  refine ⟨encode_of_operand hop hm, fun s => ?_⟩
  rw [exec_eq_stateAfter, stateAfter_of_operand hm (hclass ▸ rfl), hclass, hafter]
  rfl

/-- The store and read-modify-write classes make one write, at the effective address (R138). -/
theorem Memory.afterAccesses_operandAccesses {c : AccessClass} (hc : c = .store ∨ c = .readModifyWrite) (mem : Memory)
    (v : Byte) (s : State) : mem.afterAccesses (operandAccesses m c v s) = mem.write (effAddr m s) v := by
  obtain rfl | rfl := hc <;> rfl

/-- An instruction of these two classes writes one byte of memory; its registers and flags are left to `hpost`. -/
theorem storesTo_of_write {stored : Byte → State → Byte} {post : Byte → Byte → State → State → Prop}
    (hop : i.desc.opcode = op) (hm : i.operand = .mem m)
    (hclass : i.mnemonic.memoryClass = .store ∨ i.mnemonic.memoryClass = .readModifyWrite)
    (hstored : ∀ s : State, storedByte i.mnemonic (s.readByte (effAddr m s)) s = stored (operandValue m s) s)
    (hpost : ∀ s : State, post (operandValue m s) (stored (operandValue m s) s) s (stateAfter i s)) :
    StoresTo i op m stored post := by
  refine ⟨encode_of_operand hop hm, fun s => ⟨stateAfter i s, exec_eq_stateAfter i s, ?_⟩⟩
  have haccess : accessesOperand i.mnemonic.memoryClass = true := by obtain h | h := hclass <;> rw [h, accessesOperand]
  have hstate := stateAfter_of_operand hm haccess s
  have hmem : (stateAfter i s).mem = s.mem.write (effAddr m s) (stored (operandValue m s) s) := by
    rw [hstate, Memory.afterAccesses_operandAccesses hclass, hstored]
  refine ⟨?_, fun a ha => ?_, by rw [hstate], hpost s⟩
  · rw [State.readByte_eq, hmem, Memory.read_write_same]
  · rw [hmem, Memory.read_write_other _ _ (List.ne_of_not_mem_cons ha)]

/-- A store makes one access, its write: the effective address is not read (R69). -/
theorem handlerAccesses_of_store (hm : i.operand = .mem m) (hclass : i.mnemonic.memoryClass = .store) (s : State) :
    handlerAccesses i s = [.write (effAddr m s) (storedByte i.mnemonic (s.readByte (effAddr m s)) s)] := by
  rw [handlerAccesses_of_operand hm (hclass ▸ rfl), hclass, operandAccesses]

end

/-! ## The statements -/

/-- Settles O17: each row is of the store class and writes no register and no flag (R153 to R155); a store's only access is its write. -/
theorem storesWriteOneByte : Obligations.StoresWriteOneByte := by
  have hclass : ∀ mn ∈ [Mnemonic.sta, .stx, .sty], mn.memoryClass = .store := by decide
  refine ⟨?_, ?_, ?_, ?_, ?_, ?_, ?_, ?_, ?_, ?_, ?_, ?_, ?_, fun i m s hmn hm =>
    ⟨_, handlerAccesses_of_store hm (hclass _ hmn) s⟩⟩
  all_goals exact fun _ => storesTo_of_write rfl rfl (.inl rfl) (fun _ => rfl) fun _ => ⟨⟨rfl, rfl, rfl, rfl⟩, rfl⟩

/-- Settles O15: each row is of the read class, and LDA writes A, Z and N (R150). -/
theorem ldaLoadsAccumulator : Obligations.LdaLoadsAccumulator := by
  and_intros <;> exact fun _ => readsAs_of_read rfl rfl rfl fun _ _ => rfl

/-- Settles O16: each row is of the read class, and LDX and LDY write their register, Z and N (R151, R152). -/
theorem ldxLdyLoadIndexRegisters : Obligations.LdxLdyLoadIndexRegisters := by
  and_intros <;> exact fun _ => readsAs_of_read rfl rfl rfl fun _ _ => rfl

end Sys2Proof.Machine
end

section
/-! Addition and subtraction (42_arithmetic.md): the result and the flags of the shared adder, and SBC as the adder on the complement. -/

namespace Sys2Proof.Machine

/-! ## The adder -/

theorem flagNat_le_one (p : Byte) (f : Flag) : flagNat p f ≤ 1 := Bool.toNat_le _

theorem toNat_adderResult (p a b : Byte) : (adderResult p a b).toNat = (a.toNat + b.toNat + flagNat p .c) % 256 :=
  BitVec.toNat_ofNat ..

theorem getFlag_adderFlags_c (p a b : Byte) : getFlag (adderFlags p a b) .c = adderCarry p a b := by simp

theorem getFlag_adderFlags_v (p a b : Byte) : getFlag (adderFlags p a b) .v = adderOverflow p a b := by simp

theorem carry_adderFlags_iff (p a b : Byte) :
    getFlag (adderFlags p a b) .c = true ↔ 255 < a.toNat + b.toNat + flagNat p .c := by
  rw [getFlag_adderFlags_c, adderCarry_iff]

theorem overflow_adderFlags_iff (p a b : Byte) : getFlag (adderFlags p a b) .v = true ↔
    (a.toInt + b.toInt + (flagNat p .c : Int) < -128 ∨ 127 < a.toInt + b.toInt + (flagNat p .c : Int)) := by
  rw [getFlag_adderFlags_v, adderOverflow_iff]

theorem ZNOf_adderFlags (p a b : Byte) : ZNOf (adderFlags p a b) (adderResult p a b) := ZNOf_setZN ..

/-- The flags the statements list as written by the adder. -/
theorem adderFlags_keeps (p a b : Byte) : FlagsKeptExcept p (adderFlags p a b) [.c, .v, .z, .n] :=
  (flagsKept_adderFlags p a b).mono (by decide)

/-- Bit 7 of a byte says that the number it is in two's complement is negative. -/
theorem bit7_eq_toInt_neg (v : Byte) : v[7] = decide (v.toInt < 0) :=
  (BitVec.msb_eq_getLsbD_last v).symm.trans BitVec.msb_eq_toInt

/-- The bit formula of V in R161: neither operand has the sign of the result. -/
theorem adderOverflow_eq_bit7 (p a b : Byte) :
    adderOverflow p a b = ((a ^^^ adderResult p a b) &&& (b ^^^ adderResult p a b))[7] := by
  have hcarry := flagNat_le_one p .c
  have hresult := toNat_adderResult p a b
  have ha := a.toInt_eq_toNat_cond
  have hb := b.toInt_eq_toNat_cond
  have hr := (adderResult p a b).toInt_eq_toNat_cond
  rw [Bool.eq_iff_iff, adderOverflow_iff]
  simp only [BitVec.getElem_and, BitVec.getElem_xor, bit7_eq_toInt_neg, Bool.and_eq_true, Bool.xor_iff_ne, ne_eq,
    decide_eq_decide]
  omega

/-! ## The adder on the complement, as SBC uses it (R163) -/

theorem toNat_not_byte (v : Byte) : (~~~v).toNat = 255 - v.toNat := BitVec.toNat_not

/-- `signed8(~M) = -signed8(M) - 1` (R163). -/
theorem toInt_not_byte (v : Byte) : (~~~v).toInt = -v.toInt - 1 := by
  have hv := v.toInt_eq_toNat_cond
  have hnot := (~~~v).toInt_eq_toNat_cond
  rw [toNat_not_byte] at hnot
  omega

theorem toNat_adderResult_not (p a v : Byte) :
    ((adderResult p a (~~~v)).toNat : Int) = ((a.toNat : Int) - v.toNat - (1 - (flagNat p .c : Int))) % 256 := by
  rw [toNat_adderResult, toNat_not_byte]
  omega

theorem carry_adderFlags_not_iff (p a v : Byte) : getFlag (adderFlags p a (~~~v)) .c = true ↔
    0 ≤ (a.toNat : Int) - v.toNat - (1 - (flagNat p .c : Int)) := by
  rw [carry_adderFlags_iff, toNat_not_byte]
  omega

theorem overflow_adderFlags_not_iff (p a v : Byte) : getFlag (adderFlags p a (~~~v)) .v = true ↔
    (a.toInt - v.toInt - (1 - (flagNat p .c : Int)) < -128 ∨ 127 < a.toInt - v.toInt - (1 - (flagNat p .c : Int))) := by
  have hsum : a.toInt + (-v.toInt - 1) + (flagNat p .c : Int) = a.toInt - v.toInt - (1 - (flagNat p .c : Int)) := by omega
  rw [overflow_adderFlags_iff, toInt_not_byte, hsum]

/-! ## The statements -/

/-- What holds of M, the state before and `stateAfter` holds of M, the state before and the next state. -/
theorem readsTo_of_stateAfter {i : Instr} {op : Byte} {m : MemOperand} {post : Byte → State → State → Prop}
    (hop : i.desc.opcode = op) (hm : i.operand = .mem m)
    (hpost : ∀ s : State, post (operandValue m s) s (stateAfter i s)) : ReadsTo i op m post :=
  ⟨encode_of_operand hop hm, fun s => ⟨stateAfter i s, exec_eq_stateAfter i s, hpost s⟩⟩

/-- Settles O20: clause by clause, the adder's result and flags. -/
theorem addWithCarryFollowsItsRule : Obligations.AddWithCarryFollowsItsRule := fun s b =>
  ⟨toNat_adderResult s.p s.a b, carry_adderFlags_iff s.p s.a b, overflow_adderFlags_iff s.p s.a b,
    (getFlag_adderFlags_v s.p s.a b).trans (adderOverflow_eq_bit7 s.p s.a b), ZNOf_adderFlags s.p s.a b,
    adderFlags_keeps s.p s.a b, rfl⟩

/-- Settles O18: each row is the adder on A and M (R162). -/
theorem adcAddsWithCarry : Obligations.AdcAddsWithCarry := by
  and_intros <;> exact fun _ => readsTo_of_stateAfter rfl rfl fun s =>
    ⟨⟨toNat_adderResult s.p s.a _, carry_adderFlags_iff s.p s.a _, overflow_adderFlags_iff s.p s.a _, ZNOf_adderFlags s.p s.a _,
      adderFlags_keeps s.p s.a _⟩, rfl⟩

/-- Settles O19: each row is the adder on A and the complement of M (R163). -/
theorem sbcSubtractsWithBorrow : Obligations.SbcSubtractsWithBorrow := by
  and_intros <;> exact fun _ => readsTo_of_stateAfter rfl rfl fun s =>
    ⟨⟨toNat_adderResult_not s.p s.a _, carry_adderFlags_not_iff s.p s.a _, overflow_adderFlags_not_iff s.p s.a _,
      ZNOf_adderFlags s.p s.a _, adderFlags_keeps s.p s.a _⟩, rfl⟩

end Sys2Proof.Machine
end

section
/-! D has no effect (R160): it is carried along, overwritten, or pushed in the status byte. -/

namespace Sys2Proof.Machine

/-! ## The instructions that write D -/

/-- PLP and RTI pull P whole, CLD and SED overwrite D (R233, R235, R256, R257). -/
theorem statusAfter_putFlag_d {mn : Mnemonic} (h : mn ∈ [.plp, .rti, .cld, .sed]) (o : Operand) (v : Byte) (s : State)
    (on : Bool) : statusAfter mn o v (s.putFlag .d on) = statusAfter mn o v s := by
  cases mn with
  | plp | rti => rfl
  | cld | sed => exact setFlag_setFlag_same ..
  | _ => exact absurd h (by decide)

/-- An instruction that writes D runs to the same state whatever D was. -/
theorem stateAfter_putFlag_d {i : Instr} (h : i.mnemonic ∈ [.plp, .rti, .cld, .sed]) (s : State) (on : Bool) :
    stateAfter i (s.putFlag .d on) = stateAfter i s := by
  have hpushers : ∀ mn ∈ [Mnemonic.php, .brk], mn ∉ [.plp, .rti, .cld, .sed] := by decide
  refine State.ext_fields ?acc rfl rfl rfl ?status ?pc ?mem
  case acc => exact accAfter_putFlag rfl ..
  case status => exact statusAfter_putFlag_d h ..
  case pc => exact pcAfter_putFlag rfl ..
  case mem => exact congrArg s.mem.afterAccesses (handlerAccesses_putFlag rfl fun hpush => absurd h (hpushers _ hpush))

/-! ## The instructions that push P -/

theorem eq_php_or_brk {i : Instr} (h : i.mnemonic ∈ [.php, .brk]) : i = .php ∨ i = .brk := by
  cases i with
  | php => exact .inl rfl
  | brk => exact .inr rfl
  | _ => cases List.elem_eq_true_of_mem h

/-- Memory aside, an inert flag that the instruction does not write is carried along, also where P is pushed. -/
theorem stateAfter_putFlag_except_mem {f : Flag} (hf : f.isInert = true) {i : Instr} (hw : i.mnemonic ∉ flagWriters f)
    (s : State) (on : Bool) : stateAfter i (s.putFlag f on) =
      { (stateAfter i s).putFlag f on with mem := (stateAfter i (s.putFlag f on)).mem } :=
  State.ext_fields (accAfter_putFlag hf ..) rfl rfl rfl (statusAfter_putFlag hf hw ..) (pcAfter_putFlag hf ..) rfl

/-- Two writes at one address differ there alone. -/
theorem Memory.sameBytesExcept_write (m : Memory) (a : Addr) (v w : Byte) : SameBytesExcept (m.write a v) (m.write a w) [a] := by
  intro b hb
  have hne := List.ne_of_not_mem_cons hb
  rw [Memory.read_write_other m w hne, Memory.read_write_other m v hne]

/-- Settles O54: D is carried along as I and B are, the four writers of D overwrite it, and the status byte is the last one pushed. -/
theorem decimalFlagIsInert : Obligations.DecimalFlagIsInert := by
  intro i s on
  refine ⟨fun h => ?_, fun h => ?_, fun h => ?_⟩
  · have hwriters : flagWriters .d ⊆ [.php, .brk, .plp, .rti, .cld, .sed] := by decide
    have hpushers : [Mnemonic.php, .brk] ⊆ [.php, .brk, .plp, .rti, .cld, .sed] := by decide
    exact exec_putFlag rfl (fun hw => h (hwriters hw)) (fun hpush => absurd (hpushers hpush) h)
  · rw [exec_eq_stateAfter, exec_eq_stateAfter, stateAfter_putFlag_d h]
  · have hw : ∀ mn ∈ [Mnemonic.php, .brk], mn ∉ flagWriters .d := by decide
    refine ⟨_, _, exec_eq_stateAfter i s, exec_eq_stateAfter i _, stateAfter_putFlag_except_mem rfl (hw _ h) s on, ?_⟩
    obtain rfl | rfl := eq_php_or_brk h <;> exact Memory.sameBytesExcept_write _ _ _ _

end Sys2Proof.Machine
end

section
/-! AND, ORA, EOR and BIT (43_logical_bit.md): the flags BIT takes from A & M and from M, and the rows of each mnemonic. -/

namespace Sys2Proof.Machine

/-! ## The flags of BIT (R173) -/

/-- Bit 7 of a byte is worth 128. -/
theorem bit7_iff_toNat (v : Byte) : v[7] = true ↔ 128 ≤ v.toNat := by
  have htop : v[7] = decide (128 ≤ v.toNat) := (BitVec.msb_eq_getLsbD_last v).symm.trans v.msb_eq_decide
  rw [htop, decide_eq_true_iff]

/-- Bit 6 of a byte, the top bit of its low seven, is worth 64. -/
theorem bit6_iff_toNat (v : Byte) : v[6] = true ↔ 64 ≤ v.toNat % 128 := by
  have htop : v[6] = decide (64 ≤ (v.setWidth 7).toNat) :=
    (BitVec.msb_setWidth v).symm.trans (v.setWidth 7).msb_eq_decide
  rw [htop, BitVec.toNat_setWidth, decide_eq_true_iff]

theorem zero_bitFlags_iff (p a v : Byte) : getFlag (bitFlags p a v) .z = true ↔ a &&& v = 0 := by
  simp only [getFlag_bitFlags, reduceCtorEq, if_false, if_true, beq_iff_eq]

theorem negative_bitFlags_iff (p a v : Byte) : getFlag (bitFlags p a v) .n = true ↔ 128 ≤ v.toNat := by
  simp only [getFlag_bitFlags, reduceCtorEq, if_false, if_true, bit7_iff_toNat]

theorem overflow_bitFlags_iff (p a v : Byte) : getFlag (bitFlags p a v) .v = true ↔ 64 ≤ v.toNat % 128 := by
  simp only [getFlag_bitFlags, if_true, bit6_iff_toNat]

/-- The flags the statement lists as written by BIT. -/
theorem bitFlags_keeps (p a v : Byte) : FlagsKeptExcept p (bitFlags p a v) [.z, .n, .v] :=
  (flagsKept_bitFlags p a v).mono (by decide)

/-! ## The statements -/

/-- Settles O22: both rows are of the read class and write P alone, with the flags above (R173). -/
theorem bitTestsMemory : Obligations.BitTestsMemory := by
  and_intros <;> exact fun _ => readsTo_of_stateAfter rfl rfl fun s =>
    ⟨zero_bitFlags_iff s.p s.a _, negative_bitFlags_iff s.p s.a _, overflow_bitFlags_iff s.p s.a _, bitFlags_keeps s.p s.a _, rfl⟩

/-- Settles O21: each row is of the read class, and AND, ORA and EOR write their combination to A, and Z and N from it
(R170 to R172). -/
theorem logicalOperationsCombineWithA : Obligations.LogicalOperationsCombineWithA := by
  and_intros <;> exact fun _ => readsAs_of_read rfl rfl rfl fun _ _ => rfl

end Sys2Proof.Machine
end

section
/-! Shifts and rotates (44_shift_rotate.md): the byte and the flags of each of the four mnemonics, what they do on memory and on A, and
ROL A as a rotation of the nine bits C and A. -/

namespace Sys2Proof.Machine

/-! ## The shifted byte as a number (R180 to R183) -/

theorem aslResult_eq_ofNat (v : Byte) : aslResult v = BitVec.ofNat 8 (2 * v.toNat) := by
  apply BitVec.eq_of_toNat_eq
  simp [aslResult, Nat.shiftLeft_eq, Nat.mul_comm]

theorem lsrResult_eq_ofNat (v : Byte) : lsrResult v = BitVec.ofNat 8 (v.toNat / 2) := by
  have hlt : v.toNat / 2 < 2 ^ 8 := (Nat.div_le_self _ 2).trans_lt v.isLt
  apply BitVec.eq_of_toNat_eq
  rw [lsrResult, BitVec.toNat_ushiftRight, BitVec.toNat_ofNat, Nat.mod_eq_of_lt hlt, Nat.shiftRight_one]

/-- The bit that enters is clear in the shifted byte, so the rotates' OR is a sum. -/
theorem rolResult_eq_ofNat (c : Bool) (v : Byte) : rolResult c v = BitVec.ofNat 8 (2 * v.toNat + c.toNat) := by
  have hdisjoint : v <<< 1 &&& BitVec.ofNat 8 c.toNat = 0 := by
    ext i hi
    obtain rfl | hpos := Nat.eq_zero_or_pos i
    · simp
    · cases c <;> simp [hpos.ne']
  rw [rolResult, ← BitVec.add_eq_or_of_and_eq_zero _ _ hdisjoint]
  apply BitVec.eq_of_toNat_eq
  simp [Nat.shiftLeft_eq, Nat.mul_comm]

/-- Below bit 7 the byte that enters is clear, and bit 7 of `v >> 1` is. -/
theorem rorResult_eq_ofNat (c : Bool) (v : Byte) : rorResult c v = BitVec.ofNat 8 (v.toNat / 2 + 128 * c.toNat) := by
  have hdisjoint : v >>> 1 &&& BitVec.ofNat 8 c.toNat <<< 7 = 0 := by
    ext i hi
    by_cases h : i < 7
    · simp [h]
    · simp [BitVec.getLsbD_of_ge v (1 + i) (by omega)]
  rw [rorResult, ← BitVec.add_eq_or_of_and_eq_zero _ _ hdisjoint]
  apply BitVec.eq_of_toNat_eq
  simp [Nat.shiftLeft_eq, Nat.shiftRight_eq_div_pow, Nat.mul_comm]

/-- Bit 0 of a byte says that its number is odd. -/
theorem bit0_iff_toNat (v : Byte) : v.getLsbD 0 = true ↔ v.toNat % 2 = 1 := by
  rw [BitVec.getLsbD, Nat.testBit_zero, decide_eq_true_iff]

/-! ## What the four mnemonics share -/

/-- C of `q` says `out`, Z and N are those of the byte `r`, and the rest of the status byte is that of `p`. -/
abbrev ShiftFlags (out : Prop) (r p q : Byte) : Prop :=
  (getFlag q .c = true ↔ out) ∧ ZNOf q r ∧ FlagsKeptExcept p q [.c, .z, .n]

theorem shiftFlags_setCZN {out : Prop} {carry : Bool} (h : carry = true ↔ out) (p r : Byte) :
    ShiftFlags out r p (setCZN p carry r) := by
  refine ⟨?_, ZNOf_setZN .., (flagsKept_setCZN p carry r).mono (by decide)⟩
  simpa using h

/-- The mnemonics of 44_shift_rotate.md. -/
def shiftMnemonics : List Mnemonic := [.asl, .lsr, .rol, .ror]

/-- `mn` is the shift or rotate that takes a target `v` to `result v s` and shifts out a bit that says `out v`. -/
structure IsShift (mn : Mnemonic) (result : Byte → State → Byte) (out : Byte → Prop) : Prop where
  mem_shiftMnemonics : mn ∈ shiftMnemonics
  storedByte_eq : ∀ (v : Byte) (s : State), storedByte mn v s = result v s
  shiftFlags : ∀ (o : Operand) (v : Byte) (s : State), ShiftFlags (out v) (result v s) s.p (statusAfter mn o v s)

theorem isShift_asl : IsShift .asl (fun v _ => BitVec.ofNat 8 (2 * v.toNat)) (fun v => 128 ≤ v.toNat) where
  mem_shiftMnemonics := by decide
  storedByte_eq v _ := aslResult_eq_ofNat v
  shiftFlags _ v s := aslResult_eq_ofNat v ▸ shiftFlags_setCZN (bit7_iff_toNat v) s.p _

theorem isShift_lsr : IsShift .lsr (fun v _ => BitVec.ofNat 8 (v.toNat / 2)) (fun v => v.toNat % 2 = 1) where
  mem_shiftMnemonics := by decide
  storedByte_eq v _ := lsrResult_eq_ofNat v
  shiftFlags _ v s := lsrResult_eq_ofNat v ▸ shiftFlags_setCZN (bit0_iff_toNat v) s.p _

theorem isShift_rol :
    IsShift .rol (fun v s => BitVec.ofNat 8 (2 * v.toNat + flagNat s.p .c)) (fun v => 128 ≤ v.toNat) where
  mem_shiftMnemonics := by decide
  storedByte_eq v s := rolResult_eq_ofNat (s.flag .c) v
  shiftFlags _ v s := rolResult_eq_ofNat (s.flag .c) v ▸ shiftFlags_setCZN (bit7_iff_toNat v) s.p _

theorem isShift_ror :
    IsShift .ror (fun v s => BitVec.ofNat 8 (v.toNat / 2 + 128 * flagNat s.p .c)) (fun v => v.toNat % 2 = 1) where
  mem_shiftMnemonics := by decide
  storedByte_eq v s := rorResult_eq_ofNat (s.flag .c) v
  shiftFlags _ v s := rorResult_eq_ofNat (s.flag .c) v ▸ shiftFlags_setCZN (bit0_iff_toNat v) s.p _

/-- On memory a shift or rotate is of the read-modify-write class (R138). -/
theorem memoryClass_of_shift : ∀ mn ∈ shiftMnemonics, mn.memoryClass = .readModifyWrite := by decide

/-- None of the four writes X, Y, SP or PC, nor A but in Accumulator mode (R31 to R34, R134). -/
theorem not_writer_of_shift :
    ∀ mn ∈ shiftMnemonics, mn ∉ aWriters ∧ mn ∉ xWriters ∧ mn ∉ yWriters ∧ mn ∉ spWriters ∧ mn ∉ pcWriters := by decide

/-- In Accumulator mode a shift or rotate stores to A (R98). -/
theorem accAfter_accumulator {mn : Mnemonic} (h : mn ∈ shiftMnemonics) (v : Byte) (s : State) :
    accAfter mn .accumulator v s = storedByte mn v s := by
  cases mn with
  | asl | lsr | rol | ror => rfl
  | _ => exact absurd h (by decide)

section
variable {i : Instr} {mn : Mnemonic} {result : Byte → State → Byte} {out : Byte → Prop}

/-- A shift of A writes A, P and PC alone. -/
theorem stateAfter_of_accumulator (hshift : i.mnemonic ∈ shiftMnemonics) (hacc : i.operand = .accumulator) (s : State) :
    stateAfter i s = { s with
      a := storedByte i.mnemonic s.a s, p := statusAfter i.mnemonic .accumulator s.a s, pc := s.pc + 1 } := by
  obtain ⟨-, hx, hy, hsp, hpc⟩ := not_writer_of_shift _ hshift
  have hmem : handlerAccesses i s = [] := by rw [handlerAccesses, hacc]
  have hnext : postFetchPc .accumulator s = s.pc + 1 := BitVec.add_zero _
  rw [stateAfter, hmem, hacc, accAfter_accumulator hshift, xAfter_of_not_writer hx, yAfter_of_not_writer hy,
    spAfter_of_not_writer hsp, pcAfter_of_not_writer hpc, hnext]
  rfl

/-- The statements' row of a shift of A. -/
theorem IsShift.exec_accumulator (h : IsShift mn result out) (hmn : i.mnemonic = mn) (hacc : i.operand = .accumulator)
    (s : State) : ∃ t : State, exec i s = .next t ∧ t = { s with a := result s.a s, p := t.p, pc := s.pc + 1 } ∧
      ShiftFlags (out s.a) (result s.a s) s.p t.p := by
  subst hmn
  have hstate := stateAfter_of_accumulator h.mem_shiftMnemonics hacc s
  rw [h.storedByte_eq] at hstate
  exact ⟨_, (exec_eq_stateAfter i s).trans (congrArg _ hstate), rfl, h.shiftFlags .accumulator s.a s⟩

/-- The statements' row of a shift of memory. -/
theorem IsShift.storesTo {op : Byte} {m : MemOperand} (h : IsShift mn result out) (hmn : i.mnemonic = mn)
    (hop : i.desc.opcode = op) (hm : i.operand = .mem m)
    (hvalue : ∀ s : State, operandValue m s = s.readByte (effAddr m s)) :
    StoresTo i op m result fun v r s t => SameRegisters s t ∧ ShiftFlags (out v) r s.p t.p := by
  subst hmn
  obtain ⟨ha, hx, hy, hsp, -⟩ := not_writer_of_shift _ h.mem_shiftMnemonics
  refine storesTo_of_write hop hm (.inr (memoryClass_of_shift _ h.mem_shiftMnemonics)) (fun s => ?_) fun s => ?_
  · rw [h.storedByte_eq, hvalue]
  · rw [stateAfter, hm]
    exact ⟨⟨accAfter_of_not_writer ha Operand.noConfusion _ s, xAfter_of_not_writer hx _ s, yAfter_of_not_writer hy _ s,
      spAfter_of_not_writer hsp s⟩, h.shiftFlags (.mem m) (operandValue m s) s⟩

end

/-! ## The nine bits that ROL A rotates (R182) -/

/-- C above A. -/
def State.carryAndA (s : State) : BitVec 9 := BitVec.cons (s.flag .c) s.a

/-- C and A are the top bit and the low byte of the nine. -/
theorem State.carryAndA_inj {s t : State} : s.carryAndA = t.carryAndA ↔ s.flag .c = t.flag .c ∧ s.a = t.a := by
  refine ⟨fun h => ⟨?_, ?_⟩, fun ⟨hc, ha⟩ => by rw [carryAndA, hc, ha, carryAndA]⟩
  · simpa [carryAndA] using congrArg BitVec.msb h
  · simpa [carryAndA] using congrArg (BitVec.setWidth 8) h

/-- ROL on nine bits: bit 7 becomes the top bit, and the top bit enters below. -/
theorem cons_rolResult (c : Bool) (v : Byte) : BitVec.cons v[7] (rolResult c v) = (BitVec.cons c v).rotateLeft 1 := by
  ext i hi
  obtain rfl | hpos := Nat.eq_zero_or_pos i
  · cases c <;> simp [rolResult, BitVec.getElem_cons]
  · obtain rfl | hlt := Nat.eq_or_lt_of_le (Nat.le_of_lt_succ hi)
    · simp [BitVec.getElem_cons]
    · cases c <;> simp [rolResult, BitVec.getElem_cons, hpos.ne', hlt.ne, hi.ne]

theorem carryAndA_rolAcc (s : State) : (stateAfter .rolAcc s).carryAndA = s.carryAndA.rotateLeft 1 := by
  have hcarry : (stateAfter .rolAcc s).flag .c = s.a[7] := getFlag_setCZN ..
  rw [State.carryAndA, hcarry]
  exact cons_rolResult (s.flag .c) s.a

/-- Place `k` of a turn by `r` comes from place `r + k` modulo the width, so two turns add. -/
theorem rotateLeft_rotateLeft {w : Nat} (x : BitVec w) (m n : Nat) : (x.rotateLeft m).rotateLeft n = x.rotateLeft (m + n) := by
  apply BitVec.eq_of_getMsbD_eq
  intro k hk
  simp [BitVec.getMsbD_rotateLeft, hk, Nat.mod_lt _ (Nat.zero_lt_of_lt hk), Nat.add_assoc]

theorem rotateLeft_zero {w : Nat} (x : BitVec w) : x.rotateLeft 0 = x := by
  simp [BitVec.rotateLeft_def, BitVec.ushiftRight_eq_zero]

theorem iterate_rotateLeft_one {w : Nat} (x : BitVec w) (n : Nat) :
    (fun y : BitVec w => y.rotateLeft 1)^[n] x = x.rotateLeft n := by
  induction n with
  | zero => exact (rotateLeft_zero x).symm
  | succ n ih => rw [Function.iterate_succ_apply', ih, rotateLeft_rotateLeft]

/-- As many turns by one as there are bits are a full turn. -/
theorem iterate_rotateLeft_one_width {w : Nat} (x : BitVec w) : (fun y : BitVec w => y.rotateLeft 1)^[w] x = x := by
  rw [iterate_rotateLeft_one, ← BitVec.rotateLeft_mod_eq_rotateLeft, Nat.mod_self, rotateLeft_zero]

/-! ## Instructions in a row -/

/-- Folding `exec` over `n` times one instruction iterates its `stateAfter`. -/
theorem foldl_replicate_exec {f : Result → Instr → Result} {i : Instr} (hf : ∀ u : State, f (.next u) i = exec i u) (n : Nat)
    (s : State) : (List.replicate n i).foldl f (.next s) = .next ((stateAfter i)^[n] s) := by
  induction n generalizing s with
  | zero => rfl
  | succ n ih => rw [List.replicate_succ, List.foldl_cons, hf, exec_eq_stateAfter, ih, Function.iterate_succ_apply]

/-- Shifts of A in a row write A, P and PC alone. -/
theorem iterate_stateAfter_of_accumulator {i : Instr} (hshift : i.mnemonic ∈ shiftMnemonics) (hacc : i.operand = .accumulator)
    (n : Nat) (s : State) : ∃ a p : Byte, (stateAfter i)^[n] s = { s with a := a, p := p, pc := s.pc + BitVec.ofNat 16 n } := by
  induction n with
  | zero => exact ⟨s.a, s.p, by simp⟩
  | succ n ih =>
    obtain ⟨a, p, h⟩ := ih
    rw [Function.iterate_succ_apply', h, stateAfter_of_accumulator hshift hacc, BitVec.add_assoc]
    exact ⟨_, _, by rw [BitVec.ofNat_add]; rfl⟩

/-! ## The statements -/

/-- Settles O23: eight rows on memory and two on A, each from what ASL or LSR does to its target (R180, R181). -/
theorem aslAndLsrShiftByOne : Obligations.AslAndLsrShiftByOne := by
  refine ⟨?_, ?_, ?_, ?_, rfl, isShift_asl.exec_accumulator rfl rfl, ?_, ?_, ?_, ?_, rfl, isShift_lsr.exec_accumulator rfl rfl⟩
  iterate 4 exact fun _ => isShift_asl.storesTo rfl rfl rfl fun _ => rfl
  iterate 4 exact fun _ => isShift_lsr.storesTo rfl rfl rfl fun _ => rfl

/-- Settles O24: eight rows on memory and two on A, each from what ROL or ROR does to its target (R182, R183). -/
theorem rolAndRorRotateThroughCarry : Obligations.RolAndRorRotateThroughCarry := by
  refine ⟨?_, ?_, ?_, ?_, rfl, isShift_rol.exec_accumulator rfl rfl, ?_, ?_, ?_, ?_, rfl, isShift_ror.exec_accumulator rfl rfl⟩
  iterate 4 exact fun _ => isShift_rol.storesTo rfl rfl rfl fun _ => rfl
  iterate 4 exact fun _ => isShift_ror.storesTo rfl rfl rfl fun _ => rfl

/-- Settles O25: nine rotations by one turn C and A, taken as nine bits, all the way round. -/
theorem nineRolsRestoreAccumulatorAndCarry : Obligations.NineRolsRestoreAccumulatorAndCarry := by
  intro s
  have hstep : Function.Semiconj State.carryAndA (stateAfter .rolAcc) (·.rotateLeft 1) := carryAndA_rolAcc
  have hturn : ((stateAfter .rolAcc)^[9] s).carryAndA = s.carryAndA :=
    (hstep.iterate_right 9 s).trans (iterate_rotateLeft_one_width s.carryAndA)
  obtain ⟨hcarry, ha⟩ := State.carryAndA_inj.mp hturn
  obtain ⟨a, p, h⟩ := iterate_stateAfter_of_accumulator (i := .rolAcc) (by decide) rfl 9 s
  refine ⟨_, foldl_replicate_exec (fun _ => rfl) 9 s, ?_⟩
  rw [h] at ha hcarry ⊢
  obtain rfl : a = s.a := ha
  exact ⟨rfl, hcarry, rfl⟩

end Sys2Proof.Machine
end

section
/-! Compares (45_compare.md): the flags of a comparison, and CMP, CPX and CPY as that comparison on A, X and Y. -/

namespace Sys2Proof.Machine

/-! ## The flags of a comparison (R190) -/

theorem carry_compareFlags_iff (p reg v : Byte) : getFlag (compareFlags p reg v) .c = true ↔ v.toNat ≤ reg.toNat := by
  simp [compareFlags]

/-- Z is that of the difference, which is 0 when the two bytes are equal. -/
theorem zero_compareFlags_iff (p reg v : Byte) : getFlag (compareFlags p reg v) .z = true ↔ reg = v :=
  (ZNOf_setZN _ (reg - v)).1.trans sub_eq_zero

/-- The wrapped difference as a number. -/
theorem toNat_sub_byte (reg v : Byte) : (reg - v).toNat = (reg.toNat + 256 - v.toNat) % 256 := by
  have hv := v.isLt
  rw [BitVec.toNat_sub]
  omega

/-- N is that of the wrapped difference, not a signed order of the two bytes. -/
theorem negative_compareFlags_iff (p reg v : Byte) :
    getFlag (compareFlags p reg v) .n = true ↔ 128 ≤ (reg.toNat + 256 - v.toNat) % 256 :=
  toNat_sub_byte reg v ▸ (ZNOf_setZN _ (reg - v)).2

/-- The flags the statements list as written by a comparison. -/
theorem compareFlags_keeps (p reg v : Byte) : FlagsKeptExcept p (compareFlags p reg v) [.c, .z, .n] :=
  (flagsKept_setCZN p _ _).mono (by decide)

/-! ## The statement -/

/-- Settles O26: each row is of the read class and writes P alone, with the flags of comparing A, X or Y with M (R191 to R193). -/
theorem comparesSetCarryZeroNegative : Obligations.ComparesSetCarryZeroNegative := by
  and_intros <;> exact fun _ => readsTo_of_stateAfter rfl rfl fun s =>
    ⟨carry_compareFlags_iff s.p _ _, zero_compareFlags_iff s.p _ _, negative_compareFlags_iff s.p _ _,
      compareFlags_keeps s.p _ _, rfl⟩

end Sys2Proof.Machine
end

section
/-! Increments and decrements (46_inc_dec.md): the read-modify-write rows of INC and DEC, and the Implied instructions of register class,
which INX, DEX, INY and DEY belong to. -/

namespace Sys2Proof.Machine

/-! ## INC and DEC on memory -/

/-- One more modulo 256, as a number (R200). -/
theorem add_one_eq_ofNat (v : Byte) : v + 1 = BitVec.ofNat 8 (v.toNat + 1) := by
  simp [BitVec.ofNat_add]

/-- One less modulo 256, as a number (R201). -/
theorem sub_one_eq_ofNat (v : Byte) : v - 1 = BitVec.ofNat 8 (v.toNat + 255) := by
  simp [BitVec.ofNat_add, sub_eq_add_neg]

/-- INC and DEC are of the read-modify-write class (R138) and write none of A, X, Y and SP (R31 to R34). -/
theorem class_and_not_writer_of_inc_dec : ∀ mn ∈ [Mnemonic.inc, .dec], mn.memoryClass = .readModifyWrite ∧
    mn ∉ aWriters ∧ mn ∉ xWriters ∧ mn ∉ yWriters ∧ mn ∉ spWriters := by decide

/-- Z and N are set by the byte stored (R200, R201). -/
theorem statusAfter_of_inc_dec {mn : Mnemonic} (h : mn ∈ [.inc, .dec]) (o : Operand) (v : Byte) (s : State) :
    statusAfter mn o v s = setZN s.p (storedByte mn v s) := by
  cases mn with
  | inc | dec => rfl
  | _ => exact absurd h (by decide)

/-- The statement's row of INC or DEC. -/
theorem storesTo_of_inc_dec {i : Instr} {op : Byte} {m : MemOperand} {stored : Byte → State → Byte}
    (hmn : i.mnemonic ∈ [.inc, .dec]) (hop : i.desc.opcode = op) (hm : i.operand = .mem m)
    (hvalue : ∀ s : State, operandValue m s = s.readByte (effAddr m s))
    (hstored : ∀ (v : Byte) (s : State), storedByte i.mnemonic v s = stored v s) :
    StoresTo i op m stored fun _ r s t => SameRegisters s t ∧ ZNOf t.p r ∧ FlagsKeptExcept s.p t.p [.z, .n] := by
  obtain ⟨hclass, ha, hx, hy, hsp⟩ := class_and_not_writer_of_inc_dec _ hmn
  refine storesTo_of_write hop hm (.inr hclass) (fun s => ?_) fun s => ?_
  · rw [hstored, hvalue]
  · have hstatus : (stateAfter i s).p = setZN s.p (stored (operandValue m s) s) := by
      rw [stateAfter, hm, statusAfter_of_inc_dec hmn, hstored, operandByte]
    rw [hstatus]
    exact ⟨⟨accAfter_of_not_writer ha (hm ▸ Operand.noConfusion) _ s, xAfter_of_not_writer hx _ s,
      yAfter_of_not_writer hy _ s, spAfter_of_not_writer hsp s⟩, ZNOf_setZN .., (flagsKept_setZN ..).mono (by decide)⟩

/-! ## Implied instructions of register class -/

/-- What writes PC itself is of control class (R134, R138). -/
theorem memoryClass_of_pcWriter : ∀ mn ∈ pcWriters, mn.memoryClass = .control := by decide

section
variable {i : Instr} {op : Byte}

theorem encode_of_implied (hop : i.desc.opcode = op) (himp : i.operand = .implied) : encode i = [op] := by
  rw [encode, hop, himp, Operand.bytes]

/-- Of the Implied instructions those of the stack and control classes alone access memory (R138). -/
theorem handlerAccesses_of_implied_register (himp : i.operand = .implied) (hclass : i.mnemonic.memoryClass = .register)
    (s : State) : handlerAccesses i s = [] := by
  rw [handlerAccesses, himp]
  generalize i.mnemonic = mn at hclass
  cases mn with
  | pha | php | pla | plp | rts | rti | brk => exact absurd hclass (by decide)
  | _ => rfl

/-- An Implied instruction of register class writes the registers and P as its mnemonic does, keeps memory, and leaves PC one past its
opcode (R133, R138). -/
theorem impliedAs_of_register {after : State → State} (hop : i.desc.opcode = op) (himp : i.operand = .implied)
    (hclass : i.mnemonic.memoryClass = .register)
    (hafter : ∀ s : State, after s = { s with
      a := accAfter i.mnemonic .implied s.pulledByte s
      x := xAfter i.mnemonic s.pulledByte s
      y := yAfter i.mnemonic s.pulledByte s
      sp := spAfter i.mnemonic s
      p := statusAfter i.mnemonic .implied s.pulledByte s }) : ImpliedAs i op after := by
  have hpc : i.mnemonic ∉ pcWriters := fun h =>
    absurd (hclass.symm.trans (memoryClass_of_pcWriter _ h)) (by decide)
  refine ⟨encode_of_implied hop himp, fun s => ?_⟩
  rw [exec_eq_stateAfter, stateAfter, handlerAccesses_of_implied_register himp hclass, pcAfter_of_not_writer hpc, himp, hafter]
  rfl

end

/-! ## The statements -/

/-- Settles O27: each row stores the byte one more or one less modulo 256 and sets Z and N by it (R200, R201). -/
theorem incAndDecModifyMemory : Obligations.IncAndDecModifyMemory := by
  refine ⟨?_, ?_, ?_, ?_, ?_, ?_, ?_, ?_⟩
  iterate 4 exact fun _ => storesTo_of_inc_dec (.head _) rfl rfl (fun _ => rfl) fun v _ => add_one_eq_ofNat v
  iterate 4 exact fun _ => storesTo_of_inc_dec (.tail _ (.head _)) rfl rfl (fun _ => rfl) fun v _ => sub_one_eq_ofNat v

/-- Settles O28: each row is of register class, and writes X or Y, Z and N (R202 to R205). -/
theorem indexIncrementsAndDecrements : Obligations.IndexIncrementsAndDecrements := by
  refine ⟨?_, ?_, ?_, ?_⟩
  all_goals exact impliedAs_of_register rfl rfl rfl fun _ => rfl

end Sys2Proof.Machine
end

section
/-! Branches and jumps (47_branch_jump.md): a branch as its flag test over the relative target, and JMP as a write of PC alone. -/

namespace Sys2Proof.Machine

/-! ## Branches (R210) -/

/-- A branch is of control class, and is not JSR, the one of that class whose handler writes for a memory operand (R138, R228). -/
theorem class_of_branch : ∀ mn ∈ branchMnemonics, mn.memoryClass = .control ∧ mn ≠ .jsr := by decide

section
variable {i : Instr} {op off : Byte}

/-- The handler of a branch makes no access (R69, R210). -/
theorem handlerAccesses_of_relative (hm : i.operand = .mem (.relative off)) (s : State) : handlerAccesses i s = [] := by
  obtain ⟨hclass, hjsr⟩ := class_of_branch _ (mnemonic_of_operand_relative hm)
  simp only [handlerAccesses, Instr.accessClass, hm, if_neg hjsr, hclass, operandAccesses, reduceCtorEq, if_false]

/-- The two addresses a branch can leave in PC (R109, R133, R210). -/
theorem branchPc_relative (taken : Bool) (off : Byte) (s : State) : branchPc taken (.mem (.relative off)) s =
    if taken then BitVec.ofInt 16 ((s.pc.toNat : Int) + 2 + off.toInt) else s.pc + 2 := by
  cases taken with
  | true => exact relativeTarget_eq_ofInt s.pc off
  | false => exact BitVec.add_assoc s.pc 1 1

/-- A branch whose condition says that a flag has a value goes by that test, and changes PC alone. -/
theorem branch_of_flag_test {taken : Bool} {f : Flag} {value : Bool} {s : State} (htest : taken = true ↔ getFlag s.p f = value)
    (off : Byte) : branch taken off s = .next { s with
      pc := if getFlag s.p f = value then BitVec.ofInt 16 ((s.pc.toNat : Int) + 2 + off.toInt) else s.pc + 2 } := by
  simp only [branch_eq, branchPc_relative, htest]

/-- The statement's row of a branch: `taken` is the condition the row gives to `branch`. -/
theorem branch_row {taken : State → Bool} {f : Flag} {value : Bool} (hop : i.desc.opcode = op)
    (hm : i.operand = .mem (.relative off)) (hcycles : i.baseCycles = 2) (hexec : ∀ s, exec i s = branch (taken s) off s)
    (htest : ∀ s, taken s = true ↔ getFlag s.p f = value) :
    encode i = [op, off] ∧ i.baseCycles = 2 ∧ (∀ s : State, handlerAccesses i s = []) ∧
      ∀ s : State, exec i s = .next { s with
        pc := if getFlag s.p f = value then BitVec.ofInt 16 ((s.pc.toNat : Int) + 2 + off.toInt) else s.pc + 2 } :=
  ⟨encode_of_operand hop hm, hcycles, handlerAccesses_of_relative hm, fun s => (hexec s).trans (branch_of_flag_test (htest s) off)⟩

end

/-! ## JMP (R219) -/

/-- The statement's row of JMP: PC alone is written, with the effective address. -/
theorem jump_row {i : Instr} {op : Byte} (m : MemOperand) (hop : i.desc.opcode = op) (hm : i.operand = .mem m)
    (hexec : ∀ s, exec i s = jump m s) :
    encode i = op :: m.bytes ∧ ∀ s : State, exec i s = .next { s with pc := effAddr m s } :=
  ⟨encode_of_operand hop hm, hexec⟩

/-! ## The statements -/

/-- Settles O29: BCS, BEQ, BMI and BVS test for a set flag, BCC, BNE, BPL and BVC for a clear one (R211 to R218). -/
theorem branchesFollowTheirFlag : Obligations.BranchesFollowTheirFlag := by
  have hset (f : Flag) (s : State) : s.flag f = true ↔ getFlag s.p f = true := Iff.rfl
  have hclear (f : Flag) (s : State) : (!s.flag f) = true ↔ getFlag s.p f = false := Bool.not_eq_eq_eq_not
  and_intros <;> refine fun _ => branch_row rfl rfl rfl (fun _ => rfl) ?_
  exacts [hclear .c, hset .c, hset .z, hset .n, hclear .z, hclear .n, hclear .v, hset .v]

/-- Settles O30: the effective address is the operand (R101), or the word at it with its high byte read in the same page (R106). -/
theorem jmpGoesToTheResolvedAddress : Obligations.JmpGoesToTheResolvedAddress :=
  ⟨fun a => jump_row (.absolute a) rfl rfl fun _ => rfl, fun a => jump_row (.indirect a) rfl rfl fun _ => rfl⟩

end Sys2Proof.Machine
end

section
/-! The stack (48_stack_subroutine_interrupt.md): push and pull, the state each stack instruction runs to, and the pairs that undo each
other. -/

namespace Sys2Proof.Machine

/-! ## Push and pull (R225, R226) -/

/-- A stack address as a number (R34). -/
theorem toNat_stackAddr (sp : Byte) : (stackAddr sp).toNat = 256 + sp.toNat := by
  have := sp.isLt
  rw [stackAddr, toNat_add_zextAddr]
  exact Nat.mod_eq_of_lt (show 256 + sp.toNat < 65536 by omega)

/-- A write at one place of the stack leaves every other place as it was. -/
theorem Memory.read_write_stack_of_ne (m : Memory) (v : Byte) {p q : Byte} (h : q ≠ p) :
    (m.write (stackAddr p) v).read (stackAddr q) = m.read (stackAddr q) :=
  Memory.read_write_other m v (mt stackAddr_injective h)

/-- A pull gives the byte of the push before it. -/
theorem State.pulledByte_push (s : State) (v : Byte) : (s.push v).pulledByte = v := by
  rw [State.pulledByte_eq, State.push_sp, sub_add_cancel, State.push_mem, Memory.read_write_same]

theorem State.pull_push_sp (s : State) (v : Byte) : (s.push v).pull.sp = s.sp := sub_add_cancel s.sp 1

/-- Settles O31, from the one write of a push. -/
theorem pushAndPullStayInPageOne : Obligations.PushAndPullStayInPageOne := by
  refine ⟨fun s v => ⟨Memory.read_write_same .., toNat_stackAddr s.sp, fun a ha => ?_, ?_⟩, fun s => ⟨?_, rfl⟩,
    fun s v => ⟨s.pulledByte_push v, s.pull_push_sp v⟩⟩
  · exact Memory.read_write_other _ _ (List.ne_of_not_mem_cons ha)
  · exact State.ext_fields rfl rfl rfl (sub_one_eq_ofNat s.sp) rfl rfl rfl
  · exact State.ext_fields rfl rfl rfl (add_one_eq_ofNat s.sp) rfl rfl rfl

/-! ## The state a stack instruction runs to -/

/-- An instruction of one byte leaves PC on the next (R133). -/
theorem postFetchPc_implied (s : State) : postFetchPc .implied s = s.pc + 1 := BitVec.add_zero _

/-- Memory after an instruction differs at its stored addresses alone (R138). -/
theorem sameBytesExcept_storedAddresses (i : Instr) (s : State) :
    SameBytesExcept s.mem (stateAfter i s).mem (storedAddresses i s) :=
  fun _ ha => Memory.read_afterAccesses s.mem (by rwa [writtenAddrs_handlerAccesses])

theorem getFlag_pulledStatus (v : Byte) (f : Flag) : getFlag (pulledStatus v) f = getFlag v f := by
  cases f <;> simp [getFlag, pulledStatus, Flag.bit]

theorem stateAfter_jsr (a : Addr) (s : State) : stateAfter (.jsr a) s = { s with
    sp := s.sp - 2
    pc := a
    mem := (s.mem.write (stackAddr s.sp) (hiByte (s.pc + 2))).write (stackAddr (s.sp - 1)) (loByte (s.pc + 2)) } :=
  State.ext_fields rfl rfl rfl (sub_sub s.sp 1 1) rfl rfl rfl

theorem stateAfter_brk (s : State) : stateAfter .brk s = { s with
    sp := s.sp - 3
    p := setFlag s.p .i true
    pc := joinBytes (s.readByte 0xFFFF) (s.readByte 0xFFFE)
    mem := ((s.mem.write (stackAddr s.sp) (hiByte (s.pc + 2))).write (stackAddr (s.sp - 1)) (loByte (s.pc + 2))).write
      (stackAddr (s.sp - 2)) (pushedStatus s.p) } :=
  State.ext_fields rfl rfl rfl ((congrArg (· - 1) (sub_sub s.sp 1 1)).trans (sub_sub s.sp 2 1)) rfl rfl rfl

theorem stateAfter_rts (s : State) : stateAfter .rts s = { s with
    sp := s.sp + 2
    pc := joinBytes (s.readByte (stackAddr (s.sp + 2))) (s.readByte (stackAddr (s.sp + 1))) + 1 } := by
  have hsp : s.sp + 1 + 1 = s.sp + 2 := add_assoc s.sp 1 1
  exact hsp ▸ rfl

theorem stateAfter_rti (s : State) : stateAfter .rti s = { s with
    sp := s.sp + 3
    p := pulledStatus (s.readByte (stackAddr (s.sp + 1)))
    pc := joinBytes (s.readByte (stackAddr (s.sp + 3))) (s.readByte (stackAddr (s.sp + 2))) } := by
  have hsp : s.sp + 1 + 1 = s.sp + 2 := add_assoc s.sp 1 1
  have hsp' : s.sp + 2 + 1 = s.sp + 3 := add_assoc s.sp 2 1
  exact hsp' ▸ hsp ▸ rfl

theorem stateAfter_pha (s : State) : stateAfter .pha s =
    { s with sp := s.sp - 1, pc := s.pc + 1, mem := s.mem.write (stackAddr s.sp) s.a } :=
  State.ext_fields rfl rfl rfl rfl rfl (postFetchPc_implied s) rfl

theorem stateAfter_php (s : State) : stateAfter .php s =
    { s with sp := s.sp - 1, pc := s.pc + 1, mem := s.mem.write (stackAddr s.sp) (pushedStatus s.p) } :=
  State.ext_fields rfl rfl rfl rfl rfl (postFetchPc_implied s) rfl

theorem stateAfter_pla (s : State) : stateAfter .pla s = { s with
    a := s.readByte (stackAddr (s.sp + 1)), p := setZN s.p (s.readByte (stackAddr (s.sp + 1))), sp := s.sp + 1, pc := s.pc + 1 } :=
  State.ext_fields rfl rfl rfl rfl rfl (postFetchPc_implied s) rfl

theorem stateAfter_plp (s : State) : stateAfter .plp s =
    { s with p := pulledStatus (s.readByte (stackAddr (s.sp + 1))), sp := s.sp + 1, pc := s.pc + 1 } :=
  State.ext_fields rfl rfl rfl rfl rfl (postFetchPc_implied s) rfl

/-! ## The statements about one instruction -/

/-- Settles O32: the two pushes are to different places of the stack (R228). -/
theorem jsrPushesReturnAddressMinusOne : Obligations.JsrPushesReturnAddressMinusOne := by
  intro a
  refine ⟨rfl, fun s => ⟨_, exec_eq_stateAfter (.jsr a) s, ?_, ?_, sameBytesExcept_storedAddresses (.jsr a) s, ?_⟩⟩
  all_goals rw [stateAfter_jsr]
  · rw [State.readByte_eq, Memory.read_write_stack_of_ne _ _ (by bv_omega), Memory.read_write_same]
  · rw [State.readByte_eq, Memory.read_write_same]

/-- Settles O33 (R229). -/
theorem rtsPullsAndAddsOne : Obligations.RtsPullsAndAddsOne :=
  ⟨rfl, fun s => (exec_eq_stateAfter .rts s).trans (congrArg _ (stateAfter_rts s))⟩

/-- The statement's row of PHA and PHP: one byte pushed, P and the registers but SP and PC as before. -/
theorem push_row {i : Instr} {op : Byte} {v : State → Byte} (hencode : encode i = [op])
    (hstate : ∀ s : State, stateAfter i s =
      { s with sp := s.sp - 1, pc := s.pc + 1, mem := s.mem.write (stackAddr s.sp) (v s) }) :
    encode i = [op] ∧ ∀ s : State, ∃ t : State, exec i s = .next t ∧ t.readByte (stackAddr s.sp) = v s ∧
      SameBytesExcept s.mem t.mem [stackAddr s.sp] ∧ t = { s with sp := s.sp - 1, pc := s.pc + 1, mem := t.mem } := by
  refine ⟨hencode, fun s => ⟨_, (exec_eq_stateAfter i s).trans (congrArg _ (hstate s)), ?_, fun a ha => ?_, rfl⟩⟩
  · exact Memory.read_write_same ..
  · exact Memory.read_write_other _ _ (List.ne_of_not_mem_cons ha)

/-- Settles O34: a row each, and the pushed copy of P has bit 4 set and keeps bit 5 (R230, R231). -/
theorem phaAndPhpPush : Obligations.PhaAndPhpPush :=
  ⟨push_row rfl stateAfter_pha, push_row rfl stateAfter_php, fun s => by simp⟩

/-- Settles O35; the pulled status keeps every flag of the pulled byte (R232, R233). -/
theorem plaAndPlpPull : Obligations.PlaAndPlpPull := by
  refine ⟨⟨rfl, fun s => (exec_eq_stateAfter .pla s).trans (congrArg _ (stateAfter_pla s))⟩, rfl, fun s => ?_⟩
  exact ⟨_, (exec_eq_stateAfter .plp s).trans (congrArg _ (stateAfter_plp s)), rfl, bit5_pulledStatus _,
    getFlag_pulledStatus _⟩

/-- Settles O36: the three pushes are to different places of the stack (R234, R272). -/
theorem brkTakesTheInterrupt : Obligations.BrkTakesTheInterrupt := by
  refine ⟨rfl, fun s => ⟨_, exec_eq_stateAfter .brk s, ?_, ?_, ?_, sameBytesExcept_storedAddresses .brk s, ?_,
    flagsKept_setFlag s.p .i true, ?_⟩⟩
  all_goals rw [stateAfter_brk]
  · rw [State.readByte_eq, Memory.read_write_stack_of_ne _ _ (by bv_omega), Memory.read_write_stack_of_ne _ _ (by bv_omega),
      Memory.read_write_same]
  · rw [State.readByte_eq, Memory.read_write_stack_of_ne _ _ (by bv_omega), Memory.read_write_same]
  · exact Memory.read_write_same ..
  · rw [getFlag_setFlag, if_pos rfl]

/-- Settles O37; the pulled status keeps every flag of the pulled byte (R235, R273). -/
theorem rtiRestoresStatusAndPc : Obligations.RtiRestoresStatusAndPc :=
  ⟨rfl, fun s => ⟨_, (exec_eq_stateAfter .rti s).trans (congrArg _ (stateAfter_rti s)), bit5_pulledStatus _,
    getFlag_pulledStatus _, rfl⟩⟩

/-! ## The pairs that undo each other -/

/-- The copy of P that PHP and BRK push, pulled again, has bits 4 and 5 set (R231, R233). -/
theorem pulledStatus_pushed (p : Byte) : pulledStatus (p ||| 0x10) = p ||| 0x30 := BitVec.or_assoc p 0x10 0x20

/-- Settles O38: RTS reads the two bytes that JSR left. -/
theorem jsrThenRtsReturnsPastTheCall : Obligations.JsrThenRtsReturnsPastTheCall := by
  intro a s
  obtain ⟨t, hexec, hhigh, hlow, -, ht⟩ := (jsrPushesReturnAddressMinusOne a).2 s
  have hsp1 : t.sp + 1 = s.sp - 1 := by rw [ht]; bv_omega
  have hsp2 : t.sp + 2 = s.sp := by rw [ht]; exact sub_add_cancel s.sp 2
  have hpc : s.pc + 2 + 1 = s.pc + 3 := add_assoc s.pc 2 1
  exact ⟨t, hexec, by rw [exec_eq_stateAfter, stateAfter_rts, hsp1, hsp2, hhigh, hlow, joinBytes_hi_lo, hpc]⟩

/-- Settles O39: RTI reads the three bytes that BRK left. -/
theorem brkThenRtiReturnsPastThePadding : Obligations.BrkThenRtiReturnsPastThePadding := by
  intro s
  obtain ⟨t, hexec, hhigh, hlow, hstatus, -, -, -, ht⟩ := brkTakesTheInterrupt.2 s
  have hsp1 : t.sp + 1 = s.sp - 2 := by rw [ht]; bv_omega
  have hsp2 : t.sp + 2 = s.sp - 1 := by rw [ht]; bv_omega
  have hsp3 : t.sp + 3 = s.sp := by rw [ht]; exact sub_add_cancel s.sp 3
  exact ⟨t, hexec, by rw [exec_eq_stateAfter, stateAfter_rti, hsp1, hsp2, hsp3, hhigh, hlow, hstatus, joinBytes_hi_lo,
    pulledStatus_pushed]⟩

/-- After a push of one byte a pull brings SP back, and PC goes to the second byte after the push. -/
theorem sp_pc_after_push {s t : State} (ht : t = { s with sp := s.sp - 1, pc := s.pc + 1, mem := t.mem }) :
    t.sp + 1 = s.sp ∧ t.pc + 1 = s.pc + 2 := by
  rw [ht]
  exact ⟨sub_add_cancel s.sp 1, add_assoc s.pc 1 1⟩

/-- Settles O40: each pull reads the byte that the push left. -/
theorem pushThenPullRestores : Obligations.PushThenPullRestores := by
  intro s
  obtain ⟨⟨-, hpha⟩, ⟨-, hphp⟩, -⟩ := phaAndPhpPush
  constructor
  · obtain ⟨t, hexec, hread, -, ht⟩ := hpha s
    obtain ⟨hsp, hpc⟩ := sp_pc_after_push ht
    have ha : s.a = t.a := by rw [ht]
    have hp : s.p = t.p := by rw [ht]
    exact ⟨t, hexec, by rw [exec_eq_stateAfter, stateAfter_pla, hsp, hpc, hread.trans ha, ha, hp]⟩
  · obtain ⟨t, hexec, hread, -, ht⟩ := hphp s
    obtain ⟨hsp, hpc⟩ := sp_pc_after_push ht
    exact ⟨t, hexec, by rw [exec_eq_stateAfter, stateAfter_plp, hsp, hpc, hread, pulledStatus_pushed]⟩

end Sys2Proof.Machine
end

section
/-! Transfers, flag operations and NOP (49_transfer_flag_nop_unofficial.md R245 to R258): Implied instructions of register class. -/

namespace Sys2Proof.Machine

/-- Settles O41: each row is of register class, and all but TXS set Z and N (R245 to R250). -/
theorem transfersCopyRegisters : Obligations.TransfersCopyRegisters := by
  refine ⟨?_, ?_, ?_, ?_, ?_, ?_⟩
  all_goals exact impliedAs_of_register rfl rfl rfl fun _ => rfl

/-- The statement's row of a flag instruction, from its next state. -/
theorem flag_row {i : Instr} {op : Byte} {f : Flag} {on : Bool}
    (h : ImpliedAs i op fun s => { s with p := setFlag s.p f on }) : encode i = [op] ∧ ∀ s : State, ∃ t : State,
      exec i s = .next t ∧ getFlag t.p f = on ∧ FlagsKeptExcept s.p t.p [f] ∧ t = { s with p := t.p, pc := s.pc + 1 } := by
  obtain ⟨hencode, hexec⟩ := h
  refine ⟨hencode, fun s => ⟨_, hexec s, ?_, flagsKept_setFlag s.p f on, ?_⟩⟩
  · rw [State.advance_p, getFlag_setFlag, if_pos rfl]
  · exact State.ext_fields rfl rfl rfl rfl rfl (postFetchPc_implied s) rfl

/-- Settles O42: the flag instructions and NOP are of register class (R251 to R258). -/
theorem flagOperationsAndNop : Obligations.FlagOperationsAndNop := by
  have hnop : ImpliedAs .nop 0xEA fun s => s := impliedAs_of_register rfl rfl rfl fun _ => rfl
  obtain ⟨hencode, hexec⟩ := hnop
  refine ⟨?_, ?_, ?_, ?_, ?_, ?_, ?_, hencode, fun s => ⟨?_, handlerAccesses_of_implied_register rfl rfl s⟩⟩
  iterate 7 exact flag_row (impliedAs_of_register rfl rfl rfl fun _ => rfl)
  exact (hexec s).trans (congrArg _ (State.ext_fields rfl rfl rfl rfl rfl (postFetchPc_implied s) rfl))

end Sys2Proof.Machine
end

section
/-! The unofficial instructions (49_transfer_flag_nop_unofficial.md R260 to R264): LAX and SAX as a read and a store, DCP and ISC as a
read-modify-write followed by a comparison or a subtraction. -/

namespace Sys2Proof.Machine

/-! ## Their bytes with UNOFFICIAL_EXEC false (R115, R260) -/

theorem isUnofficial_eq_decide_mnemonic (i : Instr) : i.isUnofficial = decide (i.mnemonic ∈ [.lax, .sax, .dcp, .isc]) := by
  cases i <;> rfl

theorem decodeWith_false_of_unofficial {i : Instr} (h : i.mnemonic ∈ [.lax, .sax, .dcp, .isc]) (b1 b2 : Byte) :
    decodeWith false i.desc.opcode b1 b2 = none := by
  have hbyte : i.desc.opcode ∈ unofficialOpcodes := by
    rwa [← decide_eq_true_iff (p := _ ∈ unofficialOpcodes), ← isUnofficial_eq_decide_mem, isUnofficial_eq_decide_mnemonic,
      decide_eq_true_iff]
  exact decodeWith_false_eq_none.mpr (.inr hbyte)

/-! ## What DCP and ISC leave in A and P -/

/-- `q` is the status byte after `p` where the byte `v` is compared with the register value `reg` (R190). -/
abbrev ComparedStatus (p reg v q : Byte) : Prop :=
  (getFlag q .c = true ↔ v.toNat ≤ reg.toNat) ∧ (getFlag q .z = true ↔ reg = v) ∧
  (getFlag q .n = true ↔ 128 ≤ (reg.toNat + 256 - v.toNat) % 256) ∧ FlagsKeptExcept p q [.c, .z, .n]

theorem comparedStatus_compareFlags (p reg v : Byte) : ComparedStatus p reg v (compareFlags p reg v) :=
  ⟨carry_compareFlags_iff p reg v, zero_compareFlags_iff p reg v, negative_compareFlags_iff p reg v, compareFlags_keeps p reg v⟩

/-- `r` and `q` are A and P after the byte `v` is subtracted from A, then `a`, with the borrow of the status byte `p` (R163). -/
abbrev SubtractedWithBorrow (p a v r q : Byte) : Prop :=
  (r.toNat : Int) = ((a.toNat : Int) - v.toNat - (1 - (flagNat p .c : Int))) % 256 ∧
  (getFlag q .c = true ↔ 0 ≤ (a.toNat : Int) - v.toNat - (1 - (flagNat p .c : Int))) ∧
  (getFlag q .v = true ↔
    (a.toInt - v.toInt - (1 - (flagNat p .c : Int)) < -128 ∨ 127 < a.toInt - v.toInt - (1 - (flagNat p .c : Int)))) ∧
  ZNOf q r ∧ FlagsKeptExcept p q [.c, .v, .z, .n]

theorem subtractedWithBorrow_adder (p a v : Byte) :
    SubtractedWithBorrow p a v (adderResult p a (~~~v)) (adderFlags p a (~~~v)) :=
  ⟨toNat_adderResult_not p a v, carry_adderFlags_not_iff p a v, overflow_adderFlags_not_iff p a v, ZNOf_adderFlags p a (~~~v),
    adderFlags_keeps p a (~~~v)⟩

section
variable {i : Instr} {op : Byte} {m : MemOperand}

/-- The statement's row of DCP (R263). -/
theorem dcp_row (hmn : i.mnemonic = .dcp) (hop : i.desc.opcode = op) (hm : i.operand = .mem m)
    (hvalue : ∀ s : State, operandValue m s = s.readByte (effAddr m s)) :
    StoresTo i op m (fun v _ => BitVec.ofNat 8 (v.toNat + 255)) fun _ r s t =>
      SameRegisters s t ∧ ComparedStatus s.p s.a r t.p := by
  refine storesTo_of_write hop hm (.inr (hmn ▸ rfl)) (fun s => ?_) fun s => ?_
  · rw [hmn, hvalue]
    exact sub_one_eq_ofNat _
  · rw [stateAfter, hm, hmn, ← sub_one_eq_ofNat]
    exact ⟨⟨rfl, rfl, rfl, rfl⟩, comparedStatus_compareFlags s.p s.a _⟩

/-- The statement's row of ISC (R264). -/
theorem isc_row (hmn : i.mnemonic = .isc) (hop : i.desc.opcode = op) (hm : i.operand = .mem m)
    (hvalue : ∀ s : State, operandValue m s = s.readByte (effAddr m s)) :
    StoresTo i op m (fun v _ => BitVec.ofNat 8 (v.toNat + 1)) fun _ r s t =>
      t.x = s.x ∧ t.y = s.y ∧ t.sp = s.sp ∧ SubtractedWithBorrow s.p s.a r t.a t.p := by
  refine storesTo_of_write hop hm (.inr (hmn ▸ rfl)) (fun s => ?_) fun s => ?_
  · rw [hmn, hvalue]
    exact add_one_eq_ofNat _
  · rw [stateAfter, hm, hmn, ← add_one_eq_ofNat]
    exact ⟨rfl, rfl, rfl, subtractedWithBorrow_adder s.p s.a _⟩

end

/-! ## The statements -/

/-- Settles O43: LAX is of the read class, SAX of the store class, which makes its one write (R261, R262). -/
theorem laxLoadsBothAndSaxStoresTheirAnd : Obligations.LaxLoadsBothAndSaxStoresTheirAnd := by
  refine ⟨?_, ?_, ?_, ?_, ?_, ?_, ?_, ?_, ?_, ?_, fun i m s hmn hm => ⟨_, handlerAccesses_of_store hm (hmn ▸ rfl) s⟩,
    fun i b1 b2 h => decodeWith_false_of_unofficial (by obtain h | h := h <;> simp [h]) b1 b2⟩
  iterate 6 exact fun _ => readsAs_of_read rfl rfl rfl fun _ _ => rfl
  iterate 4 exact fun _ => storesTo_of_write rfl rfl (.inl rfl) (fun _ => rfl) fun _ => ⟨⟨rfl, rfl, rfl, rfl⟩, rfl⟩

/-- Settles O44, row by row (R263). -/
theorem dcpDecrementsAndCompares : Obligations.DcpDecrementsAndCompares := by
  refine ⟨?_, ?_, ?_, ?_, ?_, ?_, ?_, fun i b1 b2 h => decodeWith_false_of_unofficial (by simp [h]) b1 b2⟩
  all_goals exact fun _ => dcp_row rfl rfl rfl fun _ => rfl

/-- Settles O45, row by row (R264). -/
theorem iscIncrementsAndSubtracts : Obligations.IscIncrementsAndSubtracts := by
  refine ⟨?_, ?_, ?_, ?_, ?_, ?_, ?_, fun i b1 b2 h => decodeWith_false_of_unofficial (by simp [h]) b1 b2⟩
  all_goals exact fun _ => isc_row rfl rfl rfl fun _ => rfl

end Sys2Proof.Machine
end

section
/-! The immediate operand (R99): the byte after the opcode, which the fetch reads. -/

namespace Sys2Proof.Machine

/-- The operand bytes of a fetched instruction begin the two bytes after its opcode (R91, R131). -/
theorem operand_bytes_isPrefix_of_fetch {s : State} {i : Instr} (h : s.fetch = some i) :
    i.operand.bytes <+: [s.readByte (s.pc + 1), s.readByte (s.pc + 2)] := by
  obtain ⟨-, hbytes, -⟩ := decodeWith_eq_some h
  exact hbytes

/-- Settles O14: the one operand byte of Immediate is the first byte after the opcode. -/
theorem immediateOperandIsTheFetchedByte : Obligations.ImmediateOperandIsTheFetchedByte := by
  refine ⟨fun s v => ⟨rfl, rfl⟩, fun s i v hfetch hoperand => ?_⟩
  have hbytes : [v] <+: [s.readByte (s.pc + 1), s.readByte (s.pc + 2)] := by
    have h := operand_bytes_isPrefix_of_fetch hfetch
    rwa [hoperand] at h
  obtain ⟨hv, -⟩ := List.cons_prefix_cons.mp hbytes
  exact hv

end Sys2Proof.Machine
end
